-- ==== Sys2Proof/Word.lean ====
section
/-! DEFINITION. The words of the UZ4680 (bytes and multi-byte fields), the number ranges its tables are
indexed by, and reading and writing one place of a table of fixed size. -/

namespace Sys2Proof

/-- One byte, as the management port and the links carry it. -/
abbrev Byte := BitVec 8
/-- A two-byte field. -/
abbrev U16 := BitVec 16
/-- A four-byte field. -/
abbrev U32 := BitVec 32

/-- A link, L0 to L5 (00, section 3.3). -/
abbrev LinkNo := Fin 6
/-- A channel, 0 to 15 (00, section 3.3). -/
abbrev Channel := Fin 16
/-- A placement record, 0 to 63 (R3, R32). -/
abbrev RecordNo := Fin 64
/-- A destination entry, 0 to 127 (R32). -/
abbrev EntryNo := Fin 128
/-- A plane, 0 to 3 (R27). -/
abbrev PlaneNo := Fin 4

/-- The element of a table at a place. -/
def look {α : Type} {n : Nat} (v : Vector α n) (i : Fin n) : α := v[i.val]

/-- The table with one place replaced. -/
def put {α : Type} {n : Nat} (v : Vector α n) (i : Fin n) (x : α) : Vector α n := v.set i.val x

/-- Reading a place after a write of a place. -/
theorem look_put {α : Type} {n : Nat} (v : Vector α n) (i j : Fin n) (x : α) :
    look (put v i x) j = if i = j then x else look v j := by
  simp [look, put, Vector.getElem_set, Fin.ext_iff]

@[simp] theorem look_put_same {α : Type} {n : Nat} (v : Vector α n) (i : Fin n) (x : α) :
    look (put v i x) i = x := by simp [look_put]

theorem look_put_ne {α : Type} {n : Nat} (v : Vector α n) {i j : Fin n} (x : α) (h : i ≠ j) :
    look (put v i x) j = look v j := by simp [look_put, h]

@[simp] theorem look_replicate {α : Type} {n : Nat} (x : α) (i : Fin n) :
    look (Vector.replicate n x) i = x := by simp [look]

@[simp] theorem look_map {α β : Type} {n : Nat} (f : α → β) (v : Vector α n) (i : Fin n) :
    look (v.map f) i = f (look v i) := by simp [look]

@[simp] theorem look_ofFn {α : Type} {n : Nat} (f : Fin n → α) (i : Fin n) :
    look (Vector.ofFn f) i = f i := by simp [look]

/-- Two tables that agree at every place are equal. -/
theorem look_ext {α : Type} {n : Nat} {v w : Vector α n} (h : ∀ i : Fin n, look v i = look w i) :
    v = w := by
  apply Vector.ext
  intro i hi
  exact h ⟨i, hi⟩

end Sys2Proof
end

