-- ==== Sys2Proof/Syntax.lean ====
section
/-! DEFINITION. The commands of the block: one constructor of `Instr` for each row of spec/opcode_table.json.
A command is one event of the part, whole and indivisible. Events that the part makes by itself (a start, a
scan step, a grant) are commands too, since the manual leaves the moment at which they are taken open. -/

namespace Sys2Proof

/-- How the outstanding burst leaves the Burst Queue (R50): an acknowledgement or an error response with the
issue number it carries, or the expiry of the acknowledge timer. -/
inductive Departure where
  | acknowledged (number : BitVec 4)
  | refused (number : BitVec 4)
  | timedOut
  deriving DecidableEq, Repr

/-- How an OPEN or CLOSE comes to the head of an intake FIFO (R126): it joins an empty FIFO, with its channel
and its fields A and B, or it stands behind a LINE that is granted in the event of a departure (R145). -/
inductive HeadArrival where
  | joins (channel : Channel) (fieldA fieldB : U16)
  | behindGrantedLine (departure : Departure)
  deriving DecidableEq, Repr

/-- A management frame that is cut (R172, R186; log 25). -/
inductive CutFrame where
  /-- MCS# has risen before the request part was complete, and these bytes were received. -/
  | ended (received : List Byte)
  /-- MCS# is low still and the request part is not complete: these bytes have been received. -/
  | underWay (received : List Byte)
  /-- MCS# has risen after the request part was complete, within the reply part or behind it. -/
  | replied
  deriving DecidableEq, Repr

/-- The commands, in the order of spec/opcode_table.json. -/
inductive Instr where
  /-- POWER_ON, R186. -/
  | powerOn
  /-- INCOMPLETE_FRAME, R172: a frame that is cut short. -/
  | incompleteFrame (received : CutFrame)
  /-- MALFORMED, R173: the transaction code, which names no transaction. -/
  | malformed (code : Byte)
  /-- PUSH_COMMAND, R174: the length byte and the bytes that follow it. -/
  | pushCommand (length : Byte) (bytes : List Byte)
  /-- PUSH_PRIORITY, R175: the length byte and the bytes that follow it. -/
  | pushPriority (length : Byte) (bytes : List Byte)
  /-- WITHDRAW_PRIORITY, R176. -/
  | withdrawPriority
  /-- FLUSH_QUEUE, R177. -/
  | flushQueue
  /-- POP_RESPONSE, R178. -/
  | popResponse
  /-- READ_STATUS, R179. -/
  | readStatus
  /-- READ_LINK, R180: the link number byte. -/
  | readLink (link : Byte)
  /-- READ_FRAMESTORE, R181. -/
  | readFramestore
  /-- SET_PORT_CONTROL, R182: the mask, refill mark and gate bytes. -/
  | setPortControl (mask mark gate : Byte)
  /-- TABLE_RESET, R183. -/
  | tableReset
  /-- CREATE, R94: the arbiter starts a CREATE. -/
  | create
  /-- AMEND, R97: the arbiter starts an AMEND. -/
  | amend
  /-- DEFINE_PLANE, R28: the arbiter starts a DEFINE-PLANE. -/
  | definePlane
  /-- SCAN_STEP, R49: the engine takes one step of a scan. -/
  | scanStep
  /-- CREATE_COMPLETION, R95: the step that ends a CREATE's scan. -/
  | createCompletion
  /-- AMEND_COMPLETION, R98: the step that ends an AMEND's scan. -/
  | amendCompletion
  /-- DEFINE_PLANE_COMPLETION, R29: the step that ends a DEFINE-PLANE's scan. -/
  | definePlaneCompletion
  /-- SET_ATTRIBUTES, R100: the arbiter starts a SET-ATTRIBUTES. -/
  | setAttributes
  /-- RETIRE, R102: the arbiter starts a RETIRE. -/
  | retire
  /-- LOOKUP, R104: the arbiter starts a LOOKUP. -/
  | lookup
  /-- QUERY, R105: the arbiter starts a QUERY. -/
  | query
  /-- CONFIGURE_LINK, R109: the arbiter starts a CONFIGURE-LINK. -/
  | configureLink
  /-- CONFIGURE_FRAMESTORE, R111: the arbiter starts a CONFIGURE-FRAMESTORE. -/
  | configureFramestore
  /-- SET_LEVELS, R112: the arbiter starts a SET-LEVELS. -/
  | setLevels
  /-- READ_COUNTERS, R114: the arbiter starts a READ-COUNTERS. -/
  | readCounters
  /-- SYNC, R116: the arbiter starts a SYNC. -/
  | sync
  /-- SYNC_COMPLETION, R52: the departure that ends a SYNC's fence. -/
  | syncCompletion (how : Departure)
  /-- EXPIRE, R62: the arbiter starts an EXPIRE. -/
  | expire
  /-- COMMIT, R63: the arbiter starts a COMMIT. -/
  | commit
  /-- COMMIT_COMPLETION, R15: the departure that ends a COMMIT's fence. -/
  | commitCompletion (how : Departure)
  /-- RELEASE, R64: the arbiter starts a RELEASE. -/
  | release
  /-- RELEASE_COMPLETION, R7: the departure that ends a RELEASE's fence. -/
  | releaseCompletion (how : Departure)
  /-- SEGMENT_ARRIVAL, R121: a segment handed to a link receiver, its 8 header bytes and its payload. -/
  | segmentArrival (link : LinkNo) (header : Vector Byte 8) (payload : List Byte)
  /-- OPEN, R129: an OPEN reaches the head of a link's intake FIFO. -/
  | openFrame (link : LinkNo) (how : HeadArrival)
  /-- CLOSE, R132: a CLOSE reaches the head of a link's intake FIFO. -/
  | closeFrame (link : LinkNo) (how : HeadArrival)
  /-- GRANT, R144: the burst-room arbiter grants the link in turn once its k fits. -/
  | grant
  /-- ABORT_REQUEST, R133: a travelling abort request is taken by the receiver of its link. -/
  | abortRequest (record : RecordNo) (link : LinkNo) (channel : Channel)
  /-- ACKNOWLEDGEMENT, R149: the issue number it carries. -/
  | acknowledgement (number : BitVec 4)
  /-- ERROR_RESPONSE, R150: the issue number it carries. -/
  | errorResponse (number : BitVec 4)
  /-- ACK_TIMEOUT, R151. -/
  | ackTimeout
  /-- MILLISECOND_STEP, R160: a millisecond boundary. -/
  | millisecondStep
  /-- EXPIRY, R161: the millisecond boundary at which a record's age reaches its interval. -/
  | expiry (record : RecordNo)
  deriving DecidableEq, Repr

end Sys2Proof
end

