-- ==== Sys2Proof/WellFormed.lean ====
section
/-! DEFINITION. Well-formed commands: the operands describe the event that the row names. A command that
fails a check still has a meaning (it is the event its operands describe, or none). -/

namespace Sys2Proof

/-- The ten transaction codes (R187). -/
def transactionCodes : List Byte := [0x10, 0x11, 0x12, 0x13, 0x20, 0x21, 0x22, 0x23, 0x30, 0x3F]

/-- The bytes received in a frame are short of a whole request part (R170, R172, R187). An unknown code is a
whole request part by itself (R173). -/
def requestIncomplete : List Byte → Bool
  | [] => true
  | code :: rest =>
    if code = 0x10 ∨ code = 0x11 then
      match rest with
      | [] => true
      | length :: record => decide (record.length < length.toNat)
    else if code = 0x22 then rest.isEmpty
    else if code = 0x30 then decide (rest.length < 3)
    else false

/-- The bytes after the length byte of a push are as many as the length says (R170, R188). -/
def pushLengthAgrees (length : Byte) (bytes : List Byte) : Bool := decide (bytes.length = length.toNat)

/-- The payload that the kind of a header allows (R121, R190): none for an OPEN (1) or CLOSE (3), and for a
LINE (2) its pixel count times 2 or 4 bytes. -/
def payloadAgrees (header : Vector Byte 8) (payload : List Byte) : Bool :=
  let kind := (look header 2).toNat / 16
  let count := (look header 5).toNat * 256 + (look header 6).toNat
  if kind = 1 ∨ kind = 3 then payload.isEmpty
  else if kind = 2 then decide (payload.length = count * 2) || decide (payload.length = count * 4)
  else true

/-- A command is well formed. -/
def Instr.wellFormed : Instr → Bool
  | .incompleteFrame (.ended received) | .incompleteFrame (.underWay received) => requestIncomplete received
  | .malformed code => decide (code ∉ transactionCodes)
  | .pushCommand length bytes => pushLengthAgrees length bytes
  | .pushPriority length bytes => pushLengthAgrees length bytes
  | .segmentArrival _ header payload => payloadAgrees header payload
  | .powerOn | .incompleteFrame .replied | .withdrawPriority | .flushQueue | .popResponse | .readStatus | .readLink _
  | .readFramestore | .setPortControl _ _ _ | .tableReset | .create | .amend | .definePlane
  | .scanStep | .createCompletion | .amendCompletion | .definePlaneCompletion | .setAttributes
  | .retire | .lookup | .query | .configureLink | .configureFramestore | .setLevels | .readCounters
  | .sync | .syncCompletion _ | .expire | .commit | .commitCompletion _ | .release
  | .releaseCompletion _ | .openFrame _ _ | .closeFrame _ _ | .grant | .abortRequest _ _ _
  | .acknowledgement _ | .errorResponse _ | .ackTimeout | .millisecondStep | .expiry _ => true

end Sys2Proof
end

