-- ==== Sys2Proof/Decode.lean ====
section
/-! DEFINITION. Decoding. No row of spec/opcode_table.json gives bits ("fields": [] in every row), so no word of the
table spells a command. A management frame does spell one by its bytes (R187), and so it is decoded here; the layouts
of command records and of segment headers are decoded in Machine/Operands.lean. -/

namespace Sys2Proof

/-- The command a word of the opcode table spells: none, for every word. -/
def decodeTableWord (_nbits _w : Nat) : Option Instr := none

/-- The command that the bytes received in one management frame spell. A frame that ends within its request part is an
incomplete one (R172), a first byte that names no transaction is malformed (R173), and bytes behind the request part
fall in the reply part and are not examined (R170, R187). -/
def frameCommand : List Byte → Instr
  | [] => .incompleteFrame (.ended [])
  | code :: rest =>
    let length := rest.getD 0 0
    let record := (rest.drop 1).take length.toNat
    if requestIncomplete (code :: rest) then .incompleteFrame (.ended (code :: rest))
    else if code = 0x10 then .pushCommand length record
    else if code = 0x11 then .pushPriority length record
    else if code = 0x12 then .withdrawPriority
    else if code = 0x13 then .flushQueue
    else if code = 0x20 then .popResponse
    else if code = 0x21 then .readStatus
    else if code = 0x22 then .readLink (rest.getD 0 0)
    else if code = 0x23 then .readFramestore
    else if code = 0x30 then .setPortControl (rest.getD 0 0) (rest.getD 1 0) (rest.getD 2 0)
    else if code = 0x3F then .tableReset
    else .malformed code

/-- The whole bytes that the bits sampled on MDI in one frame make, each most significant bit first; bits short of a byte
make none (R170, R172). -/
def sampledBytes : List Bool → List Byte
  | b7 :: b6 :: b5 :: b4 :: b3 :: b2 :: b1 :: b0 :: rest =>
    (BitVec.ofBool b7 ++ BitVec.ofBool b6 ++ BitVec.ofBool b5 ++ BitVec.ofBool b4 ++ BitVec.ofBool b3 ++
      BitVec.ofBool b2 ++ BitVec.ofBool b1 ++ BitVec.ofBool b0) :: sampledBytes rest
  | _ => []

/-- The command that the bits sampled on MDI in one management frame spell (R170). -/
def mdiCommand (bits : List Bool) : Instr := frameCommand (sampledBytes bits)

end Sys2Proof
end

