-- ==== Sys2Proof/Config.lean ====
section
/-! DEFINITION. The free values: what the manual leaves open, as constants with no body, so that nothing
can be proved about which value they give. A claim that mentions one holds for every value. -/

namespace Sys2Proof.Config

/-- The bits that a flag byte sent by the part holds in the places its table in the formats chapter does
not list (R187, R189), for the `draw`-th reply and the byte at `offset` in it. Log 5. -/
opaque unlistedBits (draw offset : Nat) : Byte

/-- Which of several conflicting pairs of new destinations a mutual comparison names (R40, R95 state no
order among them), for the `draw`-th choice. Log 6. -/
opaque mutualPair (draw : Nat) : Nat

end Sys2Proof.Config
end

