-- ==== Sys2Proof/Machine/State.lean ====
section
/-! DEFINITION. The state of the UZ4680 as plain data: every register, queue, table, counter and flag the
manual gives the part, the queue of commands that wait, and the state after power-on. -/

namespace Sys2Proof.Machine

/-! ## Names and small structures -/

/-- A pixel size, 2 or 4 bytes (R27, R119). -/
inductive PixelSize where
  | two
  | four
  deriving DecidableEq, Repr

/-- A stream key, or the frame context that follows it: a link and a channel (00, section 3.3). -/
structure Key where
  link : LinkNo
  channel : Channel
  deriving DecidableEq, Repr

/-- A handle as a command gives it: index and generation (00, section 3.3; 10). -/
structure Handle where
  index : Byte
  generation : Byte
  deriving DecidableEq, Repr

/-! ## Command records (R91, R188) -/

/-- One destination description of a CREATE or AMEND record (R93, R188). -/
structure DestDesc where
  plane : Byte
  x : U16
  y : U16
  width : U16
  height : U16
  cropX : U16
  cropY : U16
  deriving DecidableEq, Repr

/-- The parameters of a CREATE (R93). -/
structure CreateParams where
  link : Byte
  channel : Byte
  labelPresent : Bool
  label : U16
  width : U16
  height : U16
  interval : U16
  count : Byte
  dests : Vector DestDesc 4
  retireOnSilence : Bool
  hold : Bool
  deriving DecidableEq, Repr

/-- The parameters of an AMEND (R97). -/
structure AmendParams where
  handle : Handle
  width : U16
  height : U16
  count : Byte
  dests : Vector DestDesc 4
  deriving DecidableEq, Repr

/-- The parameters of a SET-ATTRIBUTES (R100). -/
structure AttributeParams where
  handle : Handle
  hold : Bool
  interval : U16
  retireOnSilence : Bool
  labelPresent : Bool
  label : U16
  deriving DecidableEq, Repr

/-- The parameters of a DEFINE-PLANE (R28, R107). -/
structure PlaneParams where
  plane : Byte
  base : U32
  pitch : U32
  width : U16
  height : U16
  pixelSize : Byte
  deriving DecidableEq, Repr

/-- The parameters of a CONFIGURE-LINK (R108). -/
structure LinkParams where
  link : Byte
  enable : Bool
  mode : Byte
  pixelSize : Byte
  deriving DecidableEq, Repr

/-- The parameters of a READ-COUNTERS (R113, R188): the two target bytes as sent. -/
structure CounterParams where
  kind : Byte
  target0 : Byte
  target1 : Byte
  clear : Bool
  deriving DecidableEq, Repr

/-- The twelve host commands with their parameters (R91, R188). -/
inductive Command where
  | create (p : CreateParams)
  | amend (p : AmendParams)
  | setAttributes (p : AttributeParams)
  | retire (handle : Handle) (abort : Bool)
  | lookup (link channel : Byte)
  | query (index : Byte)
  | definePlane (p : PlaneParams)
  | configureLink (p : LinkParams)
  | configureFramestore (timeout : Byte)
  | setLevels (levels : Vector Byte 5)
  | readCounters (p : CounterParams)
  | sync
  deriving DecidableEq, Repr

/-- A command record: tag, preempt flag, and the code with its parameters (R91). -/
structure CommandRecord where
  tag : Byte
  preempt : Bool
  command : Command
  deriving DecidableEq, Repr

/-! ## The Placement Table (01) -/

/-- Slot A and Slot B (R10). -/
inductive SlotLetter where
  | a
  | b
  deriving DecidableEq, Repr

/-- The states of a slot that is not EMPTY (R10). -/
inductive SlotPhase where
  | active
  | staged
  | superseded
  deriving DecidableEq, Repr

/-- A slot that is not EMPTY: its state, source size and destination list (section 1.1). -/
structure Slot where
  phase : SlotPhase
  width : U16
  height : U16
  entries : List EntryNo
  deriving DecidableEq, Repr

/-- Why a record drains (R5). -/
inductive DrainCause where
  | retire
  | silence
  deriving DecidableEq, Repr

/-- The Silence Monitor's view of a source (R159). -/
inductive Activity where
  | fresh   -- NEW
  | flowing -- FLOWING
  | silent  -- SILENT
  deriving DecidableEq, Repr

/-- The four counters of a record (R21). -/
structure RecordCounters where
  placed : U32
  held : U32
  refused : U32
  damaged : U32
  deriving DecidableEq, Repr

/-- The fields of a record that is not FREE (section 1.1). LIVE is `drain = none`, DRAINING is a drain cause.
A slot that is EMPTY is `none`. -/
structure Placement where
  key : Key
  label : Option U16
  slotA : Option Slot
  slotB : Option Slot
  hold : Bool
  interval : Option U16
  retireOnSilence : Bool
  drain : Option DrainCause
  claim : Option Key
  activity : Activity
  age : U16
  counters : RecordCounters
  deriving DecidableEq, Repr

/-- A record of the Placement Table: its generation, and its placement unless it is FREE (section 1.1). -/
structure Record where
  generation : Byte
  placement : Option Placement
  deriving DecidableEq, Repr

/-! ## Planes and the Destination Pool (02) -/

/-- A defined plane's descriptor (R27). -/
structure Plane where
  base : U32
  pitch : U32
  width : U16
  height : U16
  pixelSize : PixelSize
  deriving DecidableEq, Repr

/-- An OCCUPIED destination entry (R32). -/
structure Entry where
  owner : RecordNo
  slot : SlotLetter
  plane : PlaneNo
  x : U16
  y : U16
  width : U16
  height : U16
  cropX : U16
  cropY : U16
  deriving DecidableEq, Repr

/-! ## The Maintenance Engine and its responses (03) -/

/-- The five request sources, in source-number order (R67). -/
inductive Source where
  | prioritySlot
  | releaseSet
  | commitSet
  | expirySet
  | commandQueue
  deriving DecidableEq, Repr

/-- The next step of a scan (R45, R49). -/
inductive ScanPosition where
  | mutualComparison
  | visit (entry : EntryNo)
  | planeRanges
  deriving DecidableEq, Repr

/-- The operation in flight in SCAN (R45). -/
structure ScanOperation where
  source : Source
  request : CommandRecord
  position : ScanPosition
  deriving DecidableEq, Repr

/-- What an operation in FENCE carries out (R50): a SYNC's command record, or a record index. -/
inductive FenceRequest where
  | sync (request : CommandRecord)
  | commit (record : RecordNo)
  | release (record : RecordNo)
  deriving DecidableEq, Repr

/-- The operation in flight in FENCE (R45). `awaited` is the fence set over the Burst Queue as it stood at
the start: one mark for each of its bursts still queued, oldest first, set for a burst of the set. `target`
is the slots whose entries the completion frees. -/
structure FenceOperation where
  source : Source
  request : FenceRequest
  awaited : List Bool
  target : List SlotLetter
  deriving DecidableEq, Repr

/-- The engine state (R44). -/
inductive Engine where
  | idle
  | scan (op : ScanOperation)
  | fence (op : FenceOperation)
  deriving DecidableEq, Repr

/-- The status codes of results (05, section 5.15; R189). -/
inductive Status where
  | ok | badGeometry | badKey | badParameter | duplicateKey | tableFull | planeUndefined
  | pixelMismatch | outsidePlane | poolShort | overlap | staleHandle | notLive | amendPending
  | noSuchKey | planeInUse | planeClash | linkInUse
  deriving DecidableEq, Repr

/-- The link states (R120). -/
inductive LinkState where
  | disabled
  | seeking
  | locked
  deriving DecidableEq, Repr

/-- The payloads of results (R189). -/
inductive Payload where
  | empty
  /-- failing destination position, 0 for source size or count -/
  | position (p : Nat)
  /-- a record index -/
  | record (i : RecordNo)
  /-- the source number of the first bad level -/
  | sourceNumber (n : Fin 5)
  /-- pool free count at the start, destinations needed -/
  | shortage (free needed : Nat)
  /-- the record R40 names, and the two list positions -/
  | mutualOverlap (i : RecordNo) (first second : Nat)
  /-- the record R40 names, and the entry met -/
  | poolOverlap (i : RecordNo) (entry : EntryNo)
  /-- the state of the slot that is not ACTIVE -/
  | slotPhase (phase : SlotPhase)
  /-- entry on the plane, and its owner -/
  | entryOwner (entry : EntryNo) (owner : RecordNo)
  /-- the clashing plane -/
  | plane (p : PlaneNo)
  | created (entries : List EntryNo)
  | amended (slot : SlotLetter) (flipped : Bool) (entries : List EntryNo)
  | retired (claim : Option Key) (abortSent : Bool)
  | found (activity : Activity) (hold : Bool)
  | planeDefined (plane : Byte) (isDefined : Bool)
  | linkConfigured (link : LinkNo) (enable single : Bool) (pixelSize : PixelSize) (state : LinkState)
  | timeout (t : Byte)
  | levels (levels : Vector (Fin 8) 5)
  | recordCounters (cleared : Bool) (c : RecordCounters)
  | linkCounters (cleared : Bool) (c : Vector U16 8)
  | portCounters (cleared : Bool) (refused timedOut : U16)
  /-- the snapshot of R105: the record, and the contents of the entries of each slot -/
  | snapshot (i : RecordNo) (r : Record) (entriesA entriesB : List (EntryNo × Entry))
  deriving DecidableEq, Repr

/-- The response records (R59, R60). -/
inductive Response where
  | result (tag code : Byte) (status : Status) (handle : Option Handle) (payload : Payload)
  | freed (handle : Handle) (cause : DrainCause) (label : Option U16)
  | amendApplied (handle : Handle) (label : Option U16)
  | silent (handle : Handle) (retiring : Bool) (label : Option U16)
  deriving DecidableEq, Repr

/-- A travelling abort request: the record and the frame context that claimed it (R18). -/
structure Abort where
  record : RecordNo
  context : Key
  deriving DecidableEq, Repr

/-! ## Link receivers (06) -/

/-- The kinds of segment (R121). -/
inductive SegmentKind where
  | openFrame
  | line
  | closeFrame
  deriving DecidableEq, Repr

/-- A segment with a good header (R125): its header fields and, for a LINE, its payload. -/
structure Segment where
  kind : SegmentKind
  channel : Channel
  fieldA : U16
  fieldB : U16
  payload : List Byte
  deriving DecidableEq, Repr

/-- The open states of a frame context; PLACING and HOLDING carry the claimed record (R127). -/
inductive FramePhase where
  | placing (record : RecordNo)
  | holding (record : RecordNo)
  | refused
  | unrouted
  deriving DecidableEq, Repr

/-- A frame context that is not IDLE (R127). -/
structure Frame where
  phase : FramePhase
  width : U16
  height : U16
  last : Option U16
  accepted : Nat
  damaged : Bool
  deriving DecidableEq, Repr

/-- A link receiver (R119). A frame context that is IDLE is `none`. The counters stand in the order of the
table of R113. -/
structure Link where
  state : LinkState
  enable : Bool
  single : Bool
  pixelSize : PixelSize
  goodRun : Nat
  errorRun : Nat
  fifo : List Segment
  contexts : Vector (Option Frame) 16
  counters : Vector U16 8
  attention : Bool
  deriving DecidableEq, Repr

/-! ## The Burst Queue (07) -/

/-- A burst (R140): address, length, data, and its tag of record, slot and link. -/
structure Burst where
  address : U32
  length : Nat
  data : List Byte
  record : RecordNo
  slot : SlotLetter
  link : LinkNo
  deriving DecidableEq, Repr

/-! ## The management port (09) -/

/-- How the management port stands to the chip select MCS# (R170, R186). -/
inductive PortFrame where
  /-- no frame: the next falling edge of MCS# begins one -/
  | idle
  /-- a frame, with the bytes received so far of a request part that is not complete -/
  | inProgress (request : List Byte)
  /-- a frame whose transaction has been taken, in its reply part or behind it -/
  | replying
  /-- no frame, with MCS# low since before RESETN rose: none begins until MCS# has risen -/
  | ignored
  deriving DecidableEq, Repr

/-! ## The machine -/

/-- A step of the part never stops it with a fault: the manual answers everything that goes wrong with a
reply code, a status, a counter or a flag. So there is no fault, and none is raised by anyone. -/
inductive Fault where
  deriving DecidableEq, Repr

/-- The refusals. -/
inductive Refusal where
  /-- Raised by `exec` alone, for a command that has no meaning yet. Safe: the model stops. No arm raises it
  now. -/
  | notModelled (mnemonic : String)
  deriving DecidableEq, Repr

/-- The state of the part. -/
structure State where
  /-- the commands that wait, oldest first (the host's interface to a block) -/
  pending : List Instr
  /-- how many free values have been drawn (the model's own; log 16) -/
  draws : Nat
  /-- the reply part fixed at the latest taking of a transaction (R171) -/
  reply : List Byte
  /-- the frame in progress at the management port (R170, R186) -/
  frame : PortFrame
  /-- the interrupt enable mask, as written (R182, R187) -/
  irqMask : Byte
  /-- the refill mark (R81) -/
  refillMark : Fin 16
  /-- the gate of the Command Queue (R80) -/
  gateOpen : Bool
  /-- the Command Queue, head first (R78) -/
  commandQueue : List CommandRecord
  /-- the Command Queue's back-up entry (R79) -/
  backup : Option CommandRecord
  /-- the Priority Slot (R84), which has no back-up entry (R85, where R89 lists one; log 26) -/
  prioritySlot : Option CommandRecord
  /-- the source levels in source-number order (R68) -/
  levels : Vector (Fin 8) 5
  /-- the Release set (R73) -/
  releaseSet : Vector Bool 64
  /-- the Commit set (R73) -/
  commitSet : Vector Bool 64
  /-- the Expiry set (R73) -/
  expirySet : Vector Bool 64
  /-- the engine state and the operation in flight (R44, R45) -/
  engine : Engine
  /-- the filled records of the Response Queue, oldest first (R56) -/
  responses : List Response
  /-- the reserved count of the Response Queue (R56) -/
  reserved : Nat
  /-- the abort requests travelling to the link receivers, each while the claim it was sent for stands (R18, R133;
  log 9) -/
  aborts : List Abort
  /-- the Placement Table (01) -/
  records : Vector Record 64
  /-- the Key Index, by link times 16 plus channel (R23) -/
  keyIndex : Vector (Option RecordNo) 96
  /-- the Destination Pool; a FREE entry is `none` (R32) -/
  pool : Vector (Option Entry) 128
  /-- the Plane Table; an undefined plane is `none` (R27) -/
  planes : Vector (Option Plane) 4
  /-- the link receivers L0 to L5 (R119) -/
  links : Vector Link 6
  /-- the last granted link (R139) -/
  lastGranted : LinkNo
  /-- the Burst Queue, oldest first (R147) -/
  bursts : List Burst
  /-- the latest issue number (R148) -/
  issueNumber : BitVec 4
  /-- the outstanding burst's acknowledge timer: the timeout it was issued with, `none` while no burst is
  outstanding (R148, R111) -/
  timer : Option Byte
  /-- the acknowledge timeout in force, in microseconds (R111) -/
  ackTimeout : Byte
  /-- FS_REFUSED (R155) -/
  fsRefused : U16
  /-- FS_TIMEOUT (R155) -/
  fsTimeout : U16
  /-- the frame-store attention flag (R156) -/
  fsAttention : Bool
  /-- the 1 ms timebase, in whole milliseconds since RESETN was released (R159, R169; log 11) -/
  timebase : Nat
  deriving DecidableEq, Repr

/-- A link receiver after power-on (R137). -/
def Link.reset : Link where
  state := .disabled
  enable := false
  single := false
  pixelSize := .two
  goodRun := 0
  errorRun := 0
  fifo := []
  contexts := Vector.replicate 16 none
  counters := Vector.replicate 8 0
  attention := false

/-- The part after power-on: R25 (records, Key Index), R31 (planes), R43 (pool), R65 (engine, responses,
levels, pending sets), R89 (sources), R118 and R137 (links, timeout), R158 (bursts and port), R169 (timebase)
and R186 (no frame in progress, port controls). `pending`, `draws`, `reply` and `aborts` are named in logs 8, 16, 17
and 19. The back-up entry that R89 lists for the Priority Slot is none (R85; log 26). -/
def State.reset : State where
  pending := []
  draws := 0
  reply := []
  frame := .idle
  irqMask := 0
  refillMark := 4
  gateOpen := true
  commandQueue := []
  backup := none
  prioritySlot := none
  levels := #v[0, 1, 2, 3, 4]
  releaseSet := Vector.replicate 64 false
  commitSet := Vector.replicate 64 false
  expirySet := Vector.replicate 64 false
  engine := .idle
  responses := []
  reserved := 0
  aborts := []
  records := Vector.replicate 64 { generation := 0, placement := none }
  keyIndex := Vector.replicate 96 none
  pool := Vector.replicate 128 none
  planes := Vector.replicate 4 none
  links := Vector.replicate 6 Link.reset
  lastGranted := 5
  bursts := []
  issueNumber := 15
  timer := none
  ackTimeout := 64
  fsRefused := 0
  fsTimeout := 0
  fsAttention := false
  timebase := 0

end Sys2Proof.Machine
end

