-- ==== Sys2Proof/Machine/Operands.lean ====
section
/-! DEFINITION. The operands of the commands as bytes: command records (R188) and segment headers (R190),
multi-byte fields most significant byte first (10), and the handles and keys they name. -/

namespace Sys2Proof.Machine

/-! ## Fields -/

/-- The byte at an offset (10: offsets count from 0). Callers check the length first. -/
def byteAt (bytes : List Byte) (offset : Nat) : Byte := bytes.getD offset 0

/-- A two-byte field, most significant byte first (10). -/
def wordAt (bytes : List Byte) (offset : Nat) : U16 := byteAt bytes offset ++ byteAt bytes (offset + 1)

/-- A four-byte field, most significant byte first (10). -/
def longAt (bytes : List Byte) (offset : Nat) : U32 := wordAt bytes offset ++ wordAt bytes (offset + 2)

/-- One bit of a flag byte (10). -/
def flagAt (bytes : List Byte) (offset bit : Nat) : Bool := (byteAt bytes offset).getLsbD bit

/-- The bytes of a pixel (R27). -/
def PixelSize.bytes : PixelSize → Nat
  | .two => 2
  | .four => 4

/-- A pixel size field: 2 or 4 (R28, R108). -/
def PixelSize.ofByte? (b : Byte) : Option PixelSize :=
  if b = 2 then some .two else if b = 4 then some .four else none

/-- The index of a source, record, entry or plane field, when it is in range. -/
def inRange? (n : Nat) (b : Byte) : Option (Fin n) := if h : b.toNat < n then some ⟨b.toNat, h⟩ else none

/-- A key given as two bytes: link 0 to 5, channel 0 to 15 (00, section 3.3; R94, R104). -/
def Key.ofBytes? (link channel : Byte) : Option Key :=
  match inRange? 6 link, inRange? 16 channel with
  | some l, some c => some { link := l, channel := c }
  | _, _ => none

/-- The place of a key among the 96 entries of the Key Index (R23). -/
def Key.place (k : Key) : Fin 96 := ⟨k.link.val * 16 + k.channel.val, by omega⟩

/-- The record a handle names, when its index is at most 63 (R9). -/
def Handle.record? (h : Handle) : Option RecordNo := inRange? 64 h.index

/-- The source number (R67). -/
def Source.number : Source → Fin 5
  | .prioritySlot => 0
  | .releaseSet => 1
  | .commitSet => 2
  | .expirySet => 3
  | .commandQueue => 4

/-! ## Command records (R188) -/

/-- The command code (R188). -/
def Command.code : Command → Byte
  | .create _ => 0x01
  | .amend _ => 0x02
  | .setAttributes _ => 0x03
  | .retire _ _ => 0x04
  | .lookup _ _ => 0x05
  | .query _ => 0x06
  | .definePlane _ => 0x07
  | .configureLink _ => 0x08
  | .configureFramestore _ => 0x09
  | .setLevels _ => 0x0A
  | .readCounters _ => 0x0B
  | .sync => 0x0C

/-- The record length that belongs to a command code, none for a code not listed (R188). -/
def recordLength? (code : Byte) : Option Nat :=
  if code = 0x01 then some 67
  else if code = 0x02 then some 62
  else if code = 0x03 then some 10
  else if code = 0x04 then some 6
  else if code = 0x05 then some 5
  else if code = 0x06 then some 4
  else if code = 0x07 then some 17
  else if code = 0x08 then some 7
  else if code = 0x09 then some 4
  else if code = 0x0A then some 8
  else if code = 0x0B then some 7
  else if code = 0x0C then some 3
  else none

/-- The destination description at an offset: 13 bytes (R188). -/
def destAt (bytes : List Byte) (offset : Nat) : DestDesc where
  plane := byteAt bytes offset
  x := wordAt bytes (offset + 1)
  y := wordAt bytes (offset + 3)
  width := wordAt bytes (offset + 5)
  height := wordAt bytes (offset + 7)
  cropX := wordAt bytes (offset + 9)
  cropY := wordAt bytes (offset + 11)

/-- Four destination descriptions, one after another (R188). -/
def destsAt (bytes : List Byte) (offset : Nat) : Vector DestDesc 4 :=
  #v[destAt bytes offset, destAt bytes (offset + 13), destAt bytes (offset + 26), destAt bytes (offset + 39)]

/-- A handle as two bytes: index, then generation (10). -/
def handleAt (bytes : List Byte) (offset : Nat) : Handle where
  index := byteAt bytes offset
  generation := byteAt bytes (offset + 1)

/-- The CREATE record (R188). -/
def createAt (bytes : List Byte) : CreateParams where
  link := byteAt bytes 3
  channel := byteAt bytes 4
  labelPresent := flagAt bytes 5 0
  retireOnSilence := flagAt bytes 5 1
  hold := flagAt bytes 5 2
  label := wordAt bytes 6
  width := wordAt bytes 8
  height := wordAt bytes 10
  interval := wordAt bytes 12
  count := byteAt bytes 14
  dests := destsAt bytes 15

/-- The AMEND record (R188). -/
def amendAt (bytes : List Byte) : AmendParams where
  handle := handleAt bytes 3
  width := wordAt bytes 5
  height := wordAt bytes 7
  count := byteAt bytes 9
  dests := destsAt bytes 10

/-- The SET-ATTRIBUTES record (R188). -/
def attributesAt (bytes : List Byte) : AttributeParams where
  handle := handleAt bytes 3
  hold := flagAt bytes 5 0
  retireOnSilence := flagAt bytes 5 1
  labelPresent := flagAt bytes 5 2
  interval := wordAt bytes 6
  label := wordAt bytes 8

/-- The DEFINE-PLANE record (R188). -/
def planeAt (bytes : List Byte) : PlaneParams where
  plane := byteAt bytes 3
  base := longAt bytes 4
  pitch := longAt bytes 8
  width := wordAt bytes 12
  height := wordAt bytes 14
  pixelSize := byteAt bytes 16

/-- The CONFIGURE-LINK record (R188). -/
def linkAt (bytes : List Byte) : LinkParams where
  link := byteAt bytes 3
  enable := flagAt bytes 4 0
  mode := byteAt bytes 5
  pixelSize := byteAt bytes 6

/-- The READ-COUNTERS record (R188). -/
def countersAt (bytes : List Byte) : CounterParams where
  kind := byteAt bytes 3
  target0 := byteAt bytes 4
  target1 := byteAt bytes 5
  clear := flagAt bytes 6 0

/-- The command of a record whose code is one of the twelve (R188). -/
def commandAt (bytes : List Byte) : Option Command :=
  let code := byteAt bytes 0
  if code = 0x01 then some (.create (createAt bytes))
  else if code = 0x02 then some (.amend (amendAt bytes))
  else if code = 0x03 then some (.setAttributes (attributesAt bytes))
  else if code = 0x04 then some (.retire (handleAt bytes 3) (flagAt bytes 5 0))
  else if code = 0x05 then some (.lookup (byteAt bytes 3) (byteAt bytes 4))
  else if code = 0x06 then some (.query (byteAt bytes 3))
  else if code = 0x07 then some (.definePlane (planeAt bytes))
  else if code = 0x08 then some (.configureLink (linkAt bytes))
  else if code = 0x09 then some (.configureFramestore (byteAt bytes 3))
  else if code = 0x0A then
    some (.setLevels #v[byteAt bytes 3, byteAt bytes 4, byteAt bytes 5, byteAt bytes 6, byteAt bytes 7])
  else if code = 0x0B then some (.readCounters (countersAt bytes))
  else if code = 0x0C then some .sync
  else none

/-- A command record, or none where the port answers MALFORMED: the code is not listed, or the length is not
the one that belongs to the code (R91, R174, R188). -/
def parseRecord (bytes : List Byte) : Option CommandRecord :=
  if recordLength? (byteAt bytes 0) = some bytes.length then
    (commandAt bytes).map fun c => { tag := byteAt bytes 1, preempt := flagAt bytes 2 0, command := c }
  else none

/-- The used destination descriptions, counting from the first (R93). -/
def CreateParams.used (p : CreateParams) : List DestDesc := p.dests.toList.take p.count.toNat

/-- The used destination descriptions, counting from the first (R97). -/
def AmendParams.used (p : AmendParams) : List DestDesc := p.dests.toList.take p.count.toNat

/-- An optional label from its present flag and value (R93, R100). -/
def labelOf (present : Bool) (value : U16) : Option U16 := if present then some value else none

/-- An expiry interval from its field, 0 meaning absent (R93, R100). -/
def intervalOf (ms : U16) : Option U16 := if ms = 0 then none else some ms

/-- A READ-COUNTERS target as a handle (R188). -/
def CounterParams.handle (p : CounterParams) : Handle := { index := p.target0, generation := p.target1 }

/-- The handle a command names a record by (R59): for READ-COUNTERS only when its target kind is record. -/
def Command.namedHandle : Command → Option Handle
  | .amend p => some p.handle
  | .setAttributes p => some p.handle
  | .retire h _ => some h
  | .readCounters p => if p.kind = 0 then some p.handle else none
  | .create _ | .lookup _ _ | .query _ | .definePlane _ | .configureLink _ | .configureFramestore _
  | .setLevels _ | .sync => none

/-! ## Segment headers (R121, R190) -/

/-- One shift of the check's remainder: left, with 07h exclusive-ored in when the bit shifted out is 1
(R190). -/
def crcShift (r : Byte) : Byte := if r.getLsbD 7 then (r <<< 1) ^^^ 0x07 else r <<< 1

/-- One byte taken into the check's remainder (R190). -/
def crcByte (r b : Byte) : Byte :=
  crcShift (crcShift (crcShift (crcShift (crcShift (crcShift (crcShift (crcShift (r ^^^ b))))))))

/-- The CRC-8 of some bytes, starting at 00h (R121, R190). -/
def crc8 (bytes : List Byte) : Byte := bytes.foldl crcByte 0

/-- The kind field of a header: 1 OPEN, 2 LINE, 3 CLOSE (R190). -/
def SegmentKind.ofNat? (n : Nat) : Option SegmentKind :=
  if n = 1 then some .openFrame else if n = 2 then some .line else if n = 3 then some .closeFrame else none

/-- The channel field of a header, bits 3 to 0 of its byte (R190). -/
def channelOf (b : Byte) : Channel := ⟨b.toNat % 16, Nat.mod_lt _ (by decide)⟩

/-- The segment of a good header, with no payload yet; none for a header error: a wrong sync word, a wrong
check byte, or a kind other than the three (R121). -/
def parseHeader (header : Vector Byte 8) : Option Segment :=
  let h := header.toList
  if wordAt h 0 = 0xB74E ∧ crc8 (h.take 7) = byteAt h 7 then
    (SegmentKind.ofNat? ((byteAt h 2).toNat / 16)).map fun kind =>
      { kind := kind, channel := channelOf (byteAt h 2), fieldA := wordAt h 3, fieldB := wordAt h 5,
        payload := [] }
  else none

/-- The payload length a receiver reckons from a segment's header and its link's pixel size (R121). -/
def Segment.payloadLength (g : Segment) (size : PixelSize) : Nat :=
  match g.kind with
  | .line => g.fieldB.toNat * size.bytes
  | .openFrame | .closeFrame => 0

end Sys2Proof.Machine
end

