-- ==== Sys2Proof/Machine/Flags.lean ====
section
/-! DEFINITION. Counters, flags and conditions: the counters of records, links and the frame-store port
(R21, R134, R155), the four interrupt conditions and IRQN (R184), MDO (R170, R185), and the frame-store outputs (R191). -/

namespace Sys2Proof.Machine

/-! ## Counters -/

/-- One of a record's four counters (R21). -/
inductive RecordCounter where
  | placed
  | held
  | refused
  | damaged
  deriving DecidableEq, Repr

/-- A record counter rises by one and wraps from 4294967295 to 0 (R21). -/
def RecordCounters.count (c : RecordCounters) : RecordCounter → RecordCounters
  | .placed => { c with placed := c.placed + 1 }
  | .held => { c with held := c.held + 1 }
  | .refused => { c with refused := c.refused + 1 }
  | .damaged => { c with damaged := c.damaged + 1 }

/-- The four counters at 0 (R4, R114). -/
def RecordCounters.zero : RecordCounters := { placed := 0, held := 0, refused := 0, damaged := 0 }

/-- The link counters (R134). -/
inductive LinkCounter where
  | header
  | overrun
  | noContext
  | range
  | order
  | length
  | unrouted
  | truncated
  deriving DecidableEq, Repr

/-- The place of a link counter in the order of R113. -/
def LinkCounter.place : LinkCounter → Fin 8
  | .header => 0
  | .overrun => 1
  | .noContext => 2
  | .range => 3
  | .order => 4
  | .length => 5
  | .unrouted => 6
  | .truncated => 7

/-- A counter of 0 to 65535 rises by one and stays at 65535 once it has reached it (R134, R155). -/
def saturate (n : U16) : U16 := if n = 0xFFFF then n else n + 1

/-- One link counter rises (R134). -/
def Link.count (l : Link) (c : LinkCounter) : Link :=
  { l with counters := put l.counters c.place (saturate (look l.counters c.place)) }

/-! ## Interrupt conditions (R184) -/

/-- RESPONSE_WAITING: the filled count is above 0 (R184). -/
def State.responseWaiting (s : State) : Bool := !s.responses.isEmpty

/-- QUEUE_LOW: the queue level is at or below the refill mark (R81, R184). -/
def State.queueLow (s : State) : Bool := decide (s.commandQueue.length ≤ s.refillMark.val)

/-- LINK_ATTENTION: some link's attention flag is set (R135, R184). -/
def State.linkAttention (s : State) : Bool := (List.finRange 6).any fun l => (look s.links l).attention

/-- FRAMESTORE_ATTENTION: the frame-store attention flag is set (R156, R184). -/
def State.framestoreAttention (s : State) : Bool := s.fsAttention

/-- A Bool as a bit of a byte. -/
def bit (b : Bool) (place : Nat) : Byte := if b then BitVec.ofNat 8 (2 ^ place) else 0

/-- The conditions that hold, enabled or not, with the bits of SET-PORT-CONTROL's mask (R187). -/
def State.conditions (s : State) : Byte :=
  bit s.responseWaiting 0 ||| bit s.queueLow 1 ||| bit s.linkAttention 2 ||| bit s.framestoreAttention 3

/-- IRQN is pulled low while at least one condition holds whose enable is set in the mask (R184). It is a
level, evaluated afresh in every event, so it is computed and not stored (log 14). -/
def State.irqnLow (s : State) : Bool := decide (s.irqMask &&& s.conditions ≠ 0)

/-! ## MDO (R170, R185, R186) -/

/-- What the port does with MDO. -/
inductive MdoOutput where
  /-- MDO is released. -/
  | highImpedance
  /-- The port drives MDO: with these bits in the reply part, in the order sent, and with bits that carry no information in
  the request part and behind the reply part. -/
  | sending (bits : List Bool)
  deriving DecidableEq, Repr

/-- The bits of a byte as the port sends it, most significant bit first (R170). -/
def sentBits (b : Byte) : List Bool := (List.finRange 8).map fun i => b.getMsbD i.val

/-- MDO: at high impedance while MCS# is high, and while it is ignored since power-on (R170, R185, R186; log 27); in a
frame the port sends, and in the reply part the reply fixed at the taking (R170, R171). A level, evaluated afresh in
every event, so that it is computed and not stored (log 14). -/
def State.mdo (s : State) : MdoOutput :=
  match s.frame with
  | .idle | .ignored => .highImpedance
  | .inProgress _ => .sending []
  | .replying => .sending (s.reply.flatMap sentBits)

/-! ## Flag bytes sent by the part -/

/-- A flag byte the part sends: its listed bits, and a free value in the places the formats do not list
(log 5). -/
def flagByte (listed : Byte) (value : Byte) (draw offset : Nat) : Byte :=
  (value &&& listed) ||| (Config.unlistedBits draw offset &&& ~~~listed)

/-! ## The frame-store port's outputs (R148, R191) -/

/-- What the port presents while its request is high (R191). -/
structure FramestoreOutput where
  address : U32
  length : Nat
  issueNumber : BitVec 4
  /-- the beats in ascending address order, the upper byte at the lower address -/
  beats : List U16
  deriving DecidableEq, Repr

/-- The 16-bit beats of a burst's data (R191). -/
def beatsOf : List Byte → List U16
  | hi :: lo :: rest => (hi ++ lo) :: beatsOf rest
  | _ => []

/-- A burst is outstanding while its acknowledge timer runs (R148). -/
def State.outstanding (s : State) : Bool := s.timer.isSome

/-- The outputs of the port: nothing while the request is low, and the outstanding burst, which is the head of
the Burst Queue, while it is high (R148, R185, R191). -/
def State.framestoreOutput (s : State) : Option FramestoreOutput :=
  match s.timer, s.bursts with
  | some _, b :: _ =>
    some { address := b.address, length := b.length, issueNumber := s.issueNumber, beats := beatsOf b.data }
  | _, _ => none

end Sys2Proof.Machine
end

