-- ==== Sys2Proof/Machine/Ops.lean ====
section
/-! DEFINITION. The named operations that the commands share: reading and writing the tables (01, 02), the
flip and the claim (R12 to R17), arbitration, the start and the completion of an operation (R46, R53, R69),
fences (R50) and the departure of bursts (R148 to R153). -/

namespace Sys2Proof.Machine

/-! ## Slots and records -/

/-- The other slot of a record. -/
def SlotLetter.other : SlotLetter → SlotLetter
  | .a => .b
  | .b => .a

/-- A slot by its letter (R10). -/
def Placement.slot (p : Placement) : SlotLetter → Option Slot
  | .a => p.slotA
  | .b => p.slotB

/-- A record with one slot written or emptied. -/
def Placement.withSlot (p : Placement) (x : SlotLetter) (v : Option Slot) : Placement :=
  match x with
  | .a => { p with slotA := v }
  | .b => { p with slotB := v }

/-- The state of a slot, none when EMPTY (R10). -/
def Placement.phase? (p : Placement) (x : SlotLetter) : Option SlotPhase := (p.slot x).map Slot.phase

/-- The slot in a given state, with its letter, Slot A first (R10). -/
def Placement.find? (p : Placement) (ph : SlotPhase) : Option (SlotLetter × Slot) :=
  match p.slotA, p.slotB with
  | some a, some b =>
    if a.phase = ph then some (.a, a) else if b.phase = ph then some (.b, b) else none
  | some a, none => if a.phase = ph then some (.a, a) else none
  | none, some b => if b.phase = ph then some (.b, b) else none
  | none, none => none

/-- The letters of the slots that are not EMPTY, Slot A first. -/
def Placement.occupiedSlots (p : Placement) : List SlotLetter :=
  [SlotLetter.a, SlotLetter.b].filter fun x => (p.slot x).isSome

/-- The letters of the slots in a given state. -/
def Placement.slotsIn (p : Placement) (ph : SlotPhase) : List SlotLetter :=
  [SlotLetter.a, SlotLetter.b].filter fun x => decide (p.phase? x = some ph)

/-- The source size that the next frame open is compared with: the STAGED slot's when there is one, else the
ACTIVE slot's (R14). -/
def Placement.nextGeometry (p : Placement) : Option (U16 × U16) :=
  match p.find? .staged with
  | some (_, g) => some (g.width, g.height)
  | none => (p.find? .active).map fun x => (x.2.width, x.2.height)

/-- What a flip does to a slot's state: STAGED becomes ACTIVE and ACTIVE becomes SUPERSEDED (R12). -/
def SlotPhase.flipped : SlotPhase → SlotPhase
  | .staged => .active
  | .active => .superseded
  | .superseded => .superseded

/-- The slot states of one record change over in a flip; the contents stay (R12). -/
def Placement.flip (p : Placement) : Placement :=
  { p with
    slotA := p.slotA.map fun g => { g with phase := g.phase.flipped }
    slotB := p.slotB.map fun g => { g with phase := g.phase.flipped } }

/-- One of the record's counters rises (R21). -/
def Placement.count (p : Placement) (c : RecordCounter) : Placement :=
  { p with counters := p.counters.count c }

/-- A heard report: FLOWING, age 0, whatever they were (R162). -/
def Placement.heard (p : Placement) : Placement := { p with activity := .flowing, age := 0 }

/-- The record's handle as it now stands (R8). -/
def State.handleOf (s : State) (i : RecordNo) : Handle :=
  { index := BitVec.ofNat 8 i.val, generation := (look s.records i).generation }

/-- The fields of a record, none while it is FREE. -/
def State.placement? (s : State) (i : RecordNo) : Option Placement := (look s.records i).placement

/-- Writes the fields of a record that is not FREE; its generation stays (R8). -/
def State.setPlacement (s : State) (i : RecordNo) (p : Placement) : State :=
  { s with records := put s.records i { look s.records i with placement := some p } }

/-- The FREE records in ascending order (R1). -/
def State.freeRecords (s : State) : List RecordNo :=
  (List.finRange 64).filter fun i => (look s.records i).placement.isNone

/-- The table free count (R1). -/
def State.tableFree (s : State) : Nat := s.freeRecords.length

/-! ## The Destination Pool and the planes -/

/-- The FREE destination entries in ascending order (R33, R34). -/
def State.freeEntries (s : State) : List EntryNo :=
  (List.finRange 128).filter fun e => (look s.pool e).isNone

/-- The pool free count (R33). -/
def State.poolFree (s : State) : Nat := s.freeEntries.length

/-- The lowest OCCUPIED entry at or above an index (R40, R49). -/
def State.nextOccupied (s : State) (start : Nat) : Option EntryNo :=
  (List.finRange 128).find? fun e => decide (start ≤ e.val) && (look s.pool e).isSome

/-- The plane a description names, when the plane is defined (R37). -/
def State.plane? (s : State) (b : Byte) : Option Plane := (inRange? 4 b).bind (look s.planes)

/-- The fields of a destination entry from its description (R34). -/
def DestDesc.entry (d : DestDesc) (owner : RecordNo) (x : SlotLetter) : Entry where
  owner := owner
  slot := x
  plane := ⟨d.plane.toNat % 4, Nat.mod_lt _ (by decide)⟩
  x := d.x
  y := d.y
  width := d.width
  height := d.height
  cropX := d.cropX
  cropY := d.cropY

/-- Writes entries one after another, each FREE entry taking the next description (R34). -/
def fillPool (pool : Vector (Option Entry) 128) (owner : RecordNo) (x : SlotLetter) :
    List (EntryNo × DestDesc) → Vector (Option Entry) 128
  | [] => pool
  | (e, d) :: rest => fillPool (put pool e (some (d.entry owner x))) owner x rest

/-- Makes entries FREE, one after another (R35). -/
def emptyPool (pool : Vector (Option Entry) 128) : List EntryNo → Vector (Option Entry) 128
  | [] => pool
  | e :: rest => emptyPool (put pool e none) rest

/-- Allocates the lowest FREE entries in the order of the destination list (R34). -/
def State.allocate (s : State) (owner : RecordNo) (x : SlotLetter) (ds : List DestDesc) : State :=
  { s with pool := fillPool s.pool owner x (s.freeEntries.zip ds) }

/-- The entries that an allocation takes, in list order (R34). -/
def State.allocated (s : State) (ds : List DestDesc) : List EntryNo := s.freeEntries.take ds.length

/-- The entry indices on the destination lists of some slots of a record (R35). -/
def Placement.entriesOf (p : Placement) (xs : List SlotLetter) : List EntryNo :=
  xs.flatMap fun x => ((p.slot x).map Slot.entries).getD []

/-- A rectangle on a plane (R32). -/
structure Rect where
  plane : Nat
  x : Nat
  y : Nat
  width : Nat
  height : Nat
  deriving DecidableEq, Repr

/-- The rectangle of a description. -/
def DestDesc.rect (d : DestDesc) : Rect :=
  { plane := d.plane.toNat, x := d.x.toNat, y := d.y.toNat, width := d.width.toNat, height := d.height.toNat }

/-- The rectangle of an entry. -/
def Entry.rect (e : Entry) : Rect :=
  { plane := e.plane.val, x := e.x.toNat, y := e.y.toNat, width := e.width.toNat, height := e.height.toNat }

/-- Two rectangles lie on the same plane and share a pixel (R39). -/
def Rect.shares (a b : Rect) : Bool :=
  decide (a.plane = b.plane ∧ a.x < b.x + b.width ∧ b.x < a.x + a.width ∧
    a.y < b.y + b.height ∧ b.y < a.y + a.height)

/-- The last byte of a plane's memory range, which begins at its base (R27). -/
def Plane.last (p : Plane) : Nat := p.base.toNat + p.pitch.toNat * p.height.toNat - 1

/-- Two memory ranges share a byte (R29). -/
def Plane.clashes (p q : Plane) : Bool := decide (p.base.toNat ≤ q.last ∧ q.base.toNat ≤ p.last)

/-! ## The flip, the claim and the drain (R12 to R17, R5) -/

/-- The table takes a flip request: it acts on a record that has a STAGED slot and sets its Commit bit, and is
taken with no effect on any other (R12, R75). -/
def State.takeFlip (s : State) (i : RecordNo) : State :=
  match s.placement? i with
  | some p =>
    if (p.find? .staged).isSome then
      { s.setPlacement i p.flip with commitSet := put s.commitSet i true }
    else s
  | none => s

/-- The table takes an open-and-claim request: the flip first, then the claim (R14). -/
def State.openAndClaim (s : State) (i : RecordNo) (context : Key) : State :=
  let s := s.takeFlip i
  match s.placement? i with
  | some p => s.setPlacement i { p with claim := some context }
  | none => s

/-- The table takes an unclaim request with its counter increment, and sets the Release bit of a record that
is DRAINING (R17, R74). An abort request still travelling to the claim that ends here has no effect any more, and
is discarded (R18, R133; log 9). -/
def State.unclaim (s : State) (i : RecordNo) (c : RecordCounter) : State :=
  match s.placement? i with
  | some p =>
    let s' :=
      { s.setPlacement i { p.count c with claim := none } with
        aborts := s.aborts.filter fun a => decide (a.record ≠ i) }
    if p.drain.isSome then { s' with releaseSet := put s.releaseSet i true } else s'
  | none => s

/-- A LIVE record passes to DRAINING: cause, Key Index, and either its Release bit at once or, for a claimed
record whose retirement asks for it, an abort request (R5, R18, R74). -/
def State.drain (s : State) (i : RecordNo) (p : Placement) (cause : DrainCause) (abort : Bool) : State :=
  let s' := { s.setPlacement i { p with drain := some cause } with keyIndex := put s.keyIndex p.key.place none }
  match p.claim with
  | none => { s' with releaseSet := put s.releaseSet i true }
  | some context => if abort then { s' with aborts := s.aborts ++ [{ record := i, context := context }] } else s'

/-! ## Arbitration and the start of an operation (04, R46) -/

/-- What a source offers: a command record, or a record index for an internal operation (R67). -/
inductive Request where
  | command (record : CommandRecord)
  | internal (record : RecordNo)
  deriving DecidableEq, Repr

/-- The lowest-numbered record whose bit is set (R69, R73). -/
def lowestSet (bits : Vector Bool 64) : Option RecordNo := (List.finRange 64).find? (look bits)

/-- A source's offer, as its contents stand (R67, R79, R80). -/
def State.offer (s : State) : Source → Option Request
  | .prioritySlot => s.prioritySlot.map Request.command
  | .releaseSet => (lowestSet s.releaseSet).map Request.internal
  | .commitSet => (lowestSet s.commitSet).map Request.internal
  | .expirySet => (lowestSet s.expirySet).map Request.internal
  | .commandQueue =>
    match s.backup with
    | some r => some (.command r)
    | none => if s.gateOpen then s.commandQueue.head?.map Request.command else none

/-- A source's level number (R68). -/
def State.level (s : State) (x : Source) : Nat := (look s.levels x.number).val

/-- The five sources in source-number order (R67). -/
def Source.all : List Source := [.prioritySlot, .releaseSet, .commitSet, .expirySet, .commandQueue]

/-- Of a candidate and a later source's offer, the offer with the strictly lower level number wins (R69). -/
def State.better (s : State) (best : Option (Source × Request)) (x : Source) : Option (Source × Request) :=
  match s.offer x, best with
  | none, best => best
  | some q, none => some (x, q)
  | some q, some (y, r) => if s.level x < s.level y then some (x, q) else some (y, r)

/-- The arbiter's choice among the offers: the lowest level number, then the lowest source number (R69). -/
def State.winner (s : State) : Option (Source × Request) := Source.all.foldl s.better none

/-- The free count of the Response Queue (R56). -/
def State.responseFree (s : State) : Nat := 32 - s.responses.length - s.reserved

/-- The engine is IDLE (R44). -/
def Engine.isIdle : Engine → Bool
  | .idle => true
  | .scan _ | .fence _ => false

/-- The start the arbiter takes: the engine is IDLE, the Response Queue has a free entry, and a source offers
a request (R70, R71). -/
def State.arbitrate (s : State) : Option (Source × Request) :=
  if s.engine.isIdle && decide (0 < s.responseFree) then s.winner else none

/-- The request leaves its source and one response entry is reserved (R46, points 1 and 2; R57, R77, R79). -/
def State.begun (s : State) (x : Source) (q : Request) : State :=
  let s := { s with reserved := s.reserved + 1 }
  match x, q with
  | .prioritySlot, _ => { s with prioritySlot := none }
  | .releaseSet, .internal i => { s with releaseSet := put s.releaseSet i false }
  | .commitSet, .internal i => { s with commitSet := put s.commitSet i false }
  | .expirySet, .internal i => { s with expirySet := put s.expirySet i false }
  | .releaseSet, .command _ | .commitSet, .command _ | .expirySet, .command _ => s
  | .commandQueue, _ =>
    match s.backup with
    | some _ => { s with backup := none }
    | none => { s with commandQueue := s.commandQueue.tail }

/-- The arbiter starts the host command of one kind: `pick` reads its parameters and `run` makes its start
checks and what follows. Where the start the arbiter would take is another, or none, nothing happens: the
offers wait unchanged (R70; log 1). -/
def State.startHost {α : Type} (s : State) (pick : Command → Option α)
    (run : Source → CommandRecord → α → State → State) : State :=
  match s.arbitrate with
  | some (x, .command r) =>
    match pick r.command with
    | some a => run x r a (s.begun x (.command r))
    | none => s
  | some (_, .internal _) | none => s

/-- The arbiter starts the internal operation of one pending set (R46, R61, R63, R64; log 1). -/
def State.startInternal (s : State) (source : Source) (run : RecordNo → State → State) : State :=
  match s.arbitrate with
  | some (x, .internal i) => if x = source then run i (s.begun x (.internal i)) else s
  | some (_, .command _) | none => s

/-! ## Completion of an operation (R53) -/

/-- The completion fills its reserved entry with a response and returns to IDLE (R53, R57). -/
def State.post (s : State) (r : Response) : State :=
  { s with responses := s.responses ++ [r], reserved := s.reserved - 1, engine := .idle }

/-- A dropped internal operation releases its reservation and posts nothing (R46, R57, R61). -/
def State.dropped (s : State) : State := { s with reserved := s.reserved - 1, engine := .idle }

/-- A host command completes with its result: tag and code from its record, the handle R59 requires, or the
one it found or created (R53, R59). -/
def State.finish (s : State) (r : CommandRecord) (status : Status) (payload : Payload)
    (found : Option Handle := none) : State :=
  s.post (.result r.tag r.command.code status (r.command.namedHandle <|> found) payload)

/-- The scan in flight is cancelled: its reservation is released, its command goes unchanged to the back-up
entry and the engine is IDLE (R55). -/
def State.cancelScan (s : State) (op : ScanOperation) : State :=
  { s with backup := some op.request, reserved := s.reserved - 1, engine := .idle }

/-! ## Fences and departures (R50 to R53, R148 to R153) -/

/-- A COMMIT's completion: the target's entries return to the pool, the slot becomes EMPTY and AMEND_APPLIED
is posted (R15, R35). -/
def State.completeCommit (s : State) (i : RecordNo) (target : List SlotLetter) : State :=
  match s.placement? i with
  | some p =>
    let emptied := target.foldl (fun p x => p.withSlot x none) p
    { s.setPlacement i emptied with pool := emptyPool s.pool (p.entriesOf target) }.post
      (.amendApplied (s.handleOf i) p.label)
  | none => s.dropped

/-- A RELEASE's completion: the entries return, the record becomes FREE at the next generation, its Commit and
Expiry bits are cleared and FREED is posted with the old handle (R7, R8, R35, R77). -/
def State.completeRelease (s : State) (i : RecordNo) (target : List SlotLetter) : State :=
  match s.placement? i with
  | some p =>
    match p.drain with
    | some cause =>
      { s with
        records := put s.records i { generation := (look s.records i).generation + 1, placement := none }
        pool := emptyPool s.pool (p.entriesOf target)
        commitSet := put s.commitSet i false
        expirySet := put s.expirySet i false }.post (.freed (s.handleOf i) cause p.label)
    | none => s.dropped
  | none => s.dropped

/-- The completion that ends a fence (R50). -/
def State.completeFence (s : State) (op : FenceOperation) : State :=
  match op.request with
  | .sync r => s.finish r .ok .empty
  | .commit i => s.completeCommit i op.target
  | .release i => s.completeRelease i op.target

/-- A burst of the fence set is still in the Burst Queue (R50). -/
def awaiting (marks : List Bool) : Bool := marks.any id

/-- An operation enters FENCE, or completes at once when its fence is empty (R50). -/
def State.startFence (s : State) (op : FenceOperation) : State :=
  if awaiting op.awaited then { s with engine := .fence op } else s.completeFence op

/-- The engine takes the report of a departure from the head of the Burst Queue: in FENCE it leaves the fence
set, and the fence ends when the set is empty; in IDLE and SCAN it has no effect (R50, R153). -/
def State.reportDeparture (s : State) : State :=
  match s.engine with
  | .fence op =>
    if awaiting op.awaited.tail then { s with engine := .fence { op with awaited := op.awaited.tail } }
    else s.completeFence op
  | .idle | .scan _ => s

/-- The port issues the burst that is now the head: the next issue number, and the timer with the timeout in
force (R148, R111). -/
def State.issue (s : State) : State :=
  { s with issueNumber := s.issueNumber + 1, timer := some s.ackTimeout }

/-- The port issues the next burst if the queue holds one, and else has none outstanding (R148, R149). -/
def State.issueNext (s : State) : State :=
  match s.bursts with
  | [] => { s with timer := none }
  | _ :: _ => s.issue

/-- The outstanding burst leaves the head of the Burst Queue: the departure is reported and the next burst is
issued (R149, R153). -/
def State.depart (s : State) : State := { s with bursts := s.bursts.tail }.reportDeparture.issueNext

/-- An answer is taken as the answer to the outstanding burst when one is outstanding and the number it
carries is that burst's issue number; the timer expires only while it runs (R148, R151, R152). -/
def State.answers (s : State) : Departure → Bool
  | .acknowledged n => s.outstanding && decide (n = s.issueNumber)
  | .refused n => s.outstanding && decide (n = s.issueNumber)
  | .timedOut => s.outstanding

/-- What a departure counts and flags before the burst leaves: an error response counts FS_REFUSED, a timer
expiry counts FS_TIMEOUT, and both set the attention flag (R150, R151, R155, R156). -/
def State.countDeparture (s : State) : Departure → State
  | .acknowledged _ => s
  | .refused _ => { s with fsRefused := saturate s.fsRefused, fsAttention := true }
  | .timedOut => { s with fsTimeout := saturate s.fsTimeout, fsAttention := true }

/-- The next departure ends the fence in flight, whose request satisfies a test (R50). -/
def State.fenceEnds (s : State) (kind : FenceRequest → Bool) : Bool :=
  match s.engine with
  | .fence op => kind op.request && !awaiting op.awaited.tail
  | .idle | .scan _ => false

end Sys2Proof.Machine
end

