-- ==== Sys2Proof/Machine/Frames.lean ====
section
/-! DEFINITION. The data path inside a link receiver (06): frame contexts, truncations, the OPEN, LINE and CLOSE
rules, room requests, the bursts of a line (07, section 7.1), the burst-room arbiter (07, section 7.2), lock and lock
loss, disable and restart, and a departure with the grants it makes possible. -/

namespace Sys2Proof.Machine

/-! ## Receivers and contexts -/

/-- Writes one link receiver. -/
def State.setLink (s : State) (l : LinkNo) (k : Link) : State := { s with links := put s.links l k }

/-- A frame context, none while IDLE (R127). -/
def State.context? (s : State) (l : LinkNo) (c : Channel) : Option Frame := look (look s.links l).contexts c

/-- A receiver with one frame context written. -/
def Link.withContext (k : Link) (c : Channel) (f : Option Frame) : Link :=
  { k with contexts := put k.contexts c f }

/-- Writes one frame context. -/
def State.setContext (s : State) (l : LinkNo) (c : Channel) (f : Option Frame) : State :=
  s.setLink l ((look s.links l).withContext c f)

/-- Counts a fault of a link (R134). -/
def State.countLink (s : State) (l : LinkNo) (c : LinkCounter) : State :=
  s.setLink l ((look s.links l).count c)

/-- The frame context that a segment belongs to: its channel's in tagged mode, context 0 in single mode
(R124). -/
def Link.contextOf (k : Link) (g : Segment) : Channel := if k.single then 0 else g.channel

/-- The record a frame claims, in PLACING and HOLDING (R127). -/
def FramePhase.record? : FramePhase → Option RecordNo
  | .placing r => some r
  | .holding r => some r
  | .refused | .unrouted => none

/-- The frame of a context claims a record. -/
def Frame.claims (f : Frame) (r : RecordNo) : Bool := decide (f.phase.record? = some r)

/-- A truncation (R128): TRUNCATED is counted, a claimed record is unclaimed as damaged, and the context
becomes IDLE. An IDLE context is left as it is. -/
def State.truncate (s : State) (l : LinkNo) (c : Channel) : State :=
  match s.context? l c with
  | none => s
  | some f =>
    let s := s.countLink l .truncated
    let s := match f.phase.record? with
      | some r => s.unclaim r .damaged
      | none => s
    s.setContext l c none

/-- Every context of a link that is not IDLE is truncated (R123, R136). -/
def State.truncateAll (s : State) (l : LinkNo) : State := (List.finRange 16).foldl (fun s c => s.truncate l c) s

/-! ## OPEN and CLOSE -/

/-- The frame a context takes at an OPEN (R129). -/
def Frame.opened (g : Segment) (phase : FramePhase) : Frame :=
  { phase := phase, width := g.fieldA, height := g.fieldB, last := none, accepted := 0, damaged := false }

/-- An OPEN is processed (R129): any open frame is truncated, the Key Index is read, and the context becomes
UNROUTED, REFUSED, PLACING or HOLDING; a record found is heard (R162). -/
def State.processOpen (s : State) (l : LinkNo) (g : Segment) : State :=
  let c := (look s.links l).contextOf g
  let key : Key := { link := l, channel := c }
  let s := s.truncate l c
  match (look s.keyIndex key.place).bind fun r => (s.placement? r).map fun p => (r, p) with
  | none => (s.countLink l .unrouted).setContext l c (some (Frame.opened g .unrouted))
  | some (r, p) =>
    if p.nextGeometry = some (g.fieldA, g.fieldB) then
      ((s.setPlacement r p.heard).openAndClaim r key).setContext l c
        (some (Frame.opened g (if p.hold then .holding r else .placing r)))
    else
      (s.setPlacement r (p.heard.count .refused)).setContext l c (some (Frame.opened g .refused))

/-- Every line from 0 to height − 1 was accepted (R132). -/
def Frame.complete (f : Frame) : Bool := decide (f.accepted = f.height.toNat)

/-- What a frame's CLOSE counts on its record, with the record (R132). -/
def Frame.outcome (f : Frame) : Option (RecordNo × RecordCounter) :=
  match f.phase with
  | .placing r => some (r, if f.complete && !f.damaged then .placed else .damaged)
  | .holding r => some (r, if f.complete then .held else .damaged)
  | .refused | .unrouted => none

/-- A CLOSE is processed (R132). -/
def State.processClose (s : State) (l : LinkNo) (g : Segment) : State :=
  let c := (look s.links l).contextOf g
  match s.context? l c with
  | none => s.countLink l .noContext
  | some f =>
    let s := match f.outcome with
      | some (r, counter) => s.unclaim r counter
      | none => s
    s.setContext l c none

/-- The segments at the head of an intake FIFO are taken while they are OPENs and CLOSEs; the FIFO keeps what
begins with a LINE (R126). -/
def State.takeHeads (s : State) (l : LinkNo) : List Segment → State
  | [] => s.setLink l { look s.links l with fifo := [] }
  | g :: rest =>
    match g.kind with
    | .line => s.setLink l { look s.links l with fifo := g :: rest }
    | .openFrame => (s.processOpen l g).takeHeads l rest
    | .closeFrame => (s.processClose l g).takeHeads l rest

/-! ## Lines, room and bursts -/

/-- The first check of R130 that a LINE fails against the frame of its context, none when it passes. -/
def Frame.lineFault (f : Frame) (g : Segment) : Option LinkCounter :=
  if f.height.toNat ≤ g.fieldA.toNat then some .range
  else if (match f.last with | some n => decide (g.fieldA.toNat ≤ n.toNat) | none => false) then some .order
  else if g.fieldB ≠ f.width then some .length
  else none

/-- A destination's source rows include line n: crop y ≤ n < crop y + height (R131, R141). -/
def Entry.takesLine (e : Entry) (n : Nat) : Bool :=
  decide (e.cropY.toNat ≤ n ∧ n < e.cropY.toNat + e.height.toNat)

/-- The destinations of a record's ACTIVE slot that take line n, in list order, with their planes and the
slot's letter (R131, R141, R142). -/
def State.takers (s : State) (r : RecordNo) (n : Nat) : List (SlotLetter × Entry × Plane) :=
  match (s.placement? r).bind (fun p => p.find? .active) with
  | none => []
  | some (x, g) =>
    g.entries.filterMap fun e =>
      (look s.pool e).bind fun en =>
        if en.takesLine n then (look s.planes en.plane).map fun p => (x, en, p) else none

/-- The burst of line n through one destination: address, length, data and tag (R140 to R142). -/
def burstOf (r : RecordNo) (l : LinkNo) (n : Nat) (payload : List Byte) (t : SlotLetter × Entry × Plane) : Burst :=
  let (x, e, p) := t
  let size := p.pixelSize.bytes
  { address := BitVec.ofNat 32
      (p.base.toNat + (e.y.toNat + n - e.cropY.toNat) * p.pitch.toNat + e.x.toNat * size)
    length := e.width.toNat * size
    data := (payload.drop (e.cropX.toNat * size)).take (e.width.toNat * size)
    record := r
    slot := x
    link := l }

/-- The bursts that a LINE makes through its context as it stands: none unless the context is PLACING and the
line passes its checks (R131, R141). -/
def State.lineBursts (s : State) (l : LinkNo) (g : Segment) : List Burst :=
  match s.context? l ((look s.links l).contextOf g) with
  | none => []
  | some f =>
    match f.lineFault g, f.phase with
    | none, .placing r => (s.takers r g.fieldA.toNat).map (burstOf r l g.fieldA.toNat g.payload)
    | _, _ => []

/-- The room request of a link: the number of bursts that the LINE at the head of its FIFO would make, none
when no LINE is there (R126, R131, R139, R144). -/
def State.roomRequest (s : State) (l : LinkNo) : Option Nat :=
  match (look s.links l).fifo with
  | g :: _ => if g.kind = .line then some (s.lineBursts l g).length else none
  | [] => none

/-- Bursts join the Burst Queue; the first of them is issued when the queue was empty (R141, R148). -/
def State.joinBursts (s : State) (bs : List Burst) : State :=
  let s' := { s with bursts := s.bursts ++ bs }
  if s.bursts.isEmpty && !bs.isEmpty then s'.issue else s'

/-- A LINE is processed at its grant: counted and dropped, or accepted into its frame with its bursts queued
(R130, R131). -/
def State.processLine (s : State) (l : LinkNo) (g : Segment) : State :=
  let c := (look s.links l).contextOf g
  match s.context? l c with
  | none => s.countLink l .noContext
  | some f =>
    match f.lineFault g with
    | some counter => (s.countLink l counter).setContext l c (some { f with damaged := true })
    | none =>
      (s.joinBursts (s.lineBursts l g)).setContext l c
        (some { f with last := some g.fieldA, accepted := f.accepted + 1 })

/-! ## The burst-room arbiter (R144, R145) -/

/-- The free entries of the Burst Queue (R144). -/
def State.burstRoom (s : State) : Nat := 32 - s.bursts.length

/-- The links in cyclic order, starting after the last granted link (R145). -/
def State.turn (s : State) : List LinkNo := (List.finRange 6).map fun i => s.lastGranted + 1 + i

/-- The link in turn: the first holding a room request (R145). -/
def State.linkInTurn (s : State) : Option LinkNo := s.turn.find? fun l => (s.roomRequest l).isSome

/-- The link the arbiter grants: the link in turn, when its k is no greater than the free entries (R145). -/
def State.granted (s : State) : Option LinkNo :=
  s.linkInTurn.filter fun l => decide ((s.roomRequest l).getD 0 ≤ s.burstRoom)

/-- A grant: the last granted link is recorded, the LINE is processed and leaves the FIFO, and the OPENs and
CLOSEs behind it that come to the head are taken in the same event (R126, R144). -/
def State.doGrant (s : State) (l : LinkNo) : State :=
  match (look s.links l).fifo with
  | [] => s
  | g :: rest => ({ s with lastGranted := l }.processLine l g).takeHeads l rest

/-- The segments that wait in the intake FIFOs of all links (R125). -/
def State.waiting (s : State) : Nat := ((List.finRange 6).map fun l => (look s.links l).fifo.length).sum

/-- At most `n` grants, one after another, each to the link then in turn while its k fits (R145). -/
def State.grantUpTo : Nat → State → State
  | 0, s => s
  | n + 1, s =>
    match s.granted with
    | some l => State.grantUpTo n (s.doGrant l)
    | none => s

/-- Every grant that is possible is made, in the event that makes it possible: a departure, a request posted or
withdrawn, a fall in a waiting line's k, and the grant before it (R144, R145, R146). Each grant takes a segment that
waits, so that there are no more grants than those. -/
def State.grantAll (s : State) : State := State.grantUpTo s.waiting s

/-- The segments that a grant to a link brings to the head and takes: the OPENs and CLOSEs right behind its
LINE (R126). -/
def State.behindGrant (s : State) (l : LinkNo) : List Segment :=
  (look s.links l).fifo.tail.takeWhile fun g => decide (g.kind ≠ .line)

/-- Among at most `n` grants is one to link `l` that brings a segment of some kind to the head (R126, R145). -/
def State.grantsTake : Nat → State → LinkNo → SegmentKind → Bool
  | 0, _, _, _ => false
  | n + 1, s, l, kind =>
    match s.granted with
    | some m =>
      (decide (m = l) && (s.behindGrant m).any fun g => decide (g.kind = kind)) ||
        State.grantsTake n (s.doGrant m) l kind
    | none => false

/-! ## The intake FIFO, lock and lock loss -/

/-- An OPEN or CLOSE for the same context waits in the FIFO (R125). -/
def Link.frameEdgeWaits (k : Link) (c : Channel) : Bool :=
  k.fifo.any fun g => decide (g.kind ≠ .line) && decide (k.contextOf g = c)

/-- A good segment is offered to the intake FIFO: it joins, and at the head at once it is taken as an OPEN or CLOSE,
or posts its request as a LINE, with the grants that this makes possible; or it is dropped at 4 waiting, with OVERRUN
and, for a LINE of the frame its context holds, the damaged mark (R125, R126, R145). The waiting LINE at the head is one
of the 4: R125's count, where R147 tells of four more behind it (log 24). -/
def State.offerSegment (s : State) (l : LinkNo) (g : Segment) : State :=
  let k := look s.links l
  if k.fifo.length < 4 then
    if k.fifo.isEmpty then
      match g.kind with
      | .line => (s.setLink l { k with fifo := [g] }).grantAll
      | .openFrame => s.processOpen l g
      | .closeFrame => s.processClose l g
    else s.setLink l { k with fifo := k.fifo ++ [g] }
  else
    let s := s.countLink l .overrun
    let c := k.contextOf g
    match g.kind, s.context? l c with
    | .line, some f => if k.frameEdgeWaits c then s else s.setContext l c (some { f with damaged := true })
    | .line, none | .openFrame, _ | .closeFrame, _ => s

/-- A link loses lock: attention, truncations, the FIFO discarded, SEEKING with a good run of 0 (R123). -/
def State.loseLock (s : State) (l : LinkNo) : State :=
  let s := s.truncateAll l
  s.setLink l { look s.links l with state := .seeking, goodRun := 0, fifo := [], attention := true }

/-- A header error in LOCKED: HEADER is counted, and the eighth in a row loses lock (R123); the turn then passes to the
next requesting link (R145). -/
def State.lockedError (s : State) (l : LinkNo) : State :=
  let k := (look s.links l).count .header
  let s := s.setLink l { k with errorRun := k.errorRun + 1 }
  if 8 ≤ k.errorRun + 1 then (s.loseLock l).grantAll else s

/-- A good header in LOCKED: the error run is 0 and the segment is offered to the FIFO (R123). -/
def State.lockedGood (s : State) (l : LinkNo) (g : Segment) : State :=
  (s.setLink l { look s.links l with errorRun := 0 }).offerSegment l g

/-- A segment arrival in SEEKING: the good run, and LOCKED at the fourth good header (R122). -/
def Link.seek (k : Link) (good : Bool) : Link :=
  if good then
    if 4 ≤ k.goodRun + 1 then { k with state := .locked, goodRun := k.goodRun + 1, errorRun := 0 }
    else { k with goodRun := k.goodRun + 1 }
  else { k with goodRun := 0 }

/-- A disable or restart empties a receiver: contexts truncated, FIFO discarded, both runs 0, and the state it
enters (R136). -/
def State.emptyReceiver (s : State) (l : LinkNo) (state : LinkState) : State :=
  let s := s.truncateAll l
  s.setLink l { look s.links l with state := state, goodRun := 0, errorRun := 0, fifo := [] }

/-! ## Departures (R148 to R153) -/

/-- An answer or a timer expiry reaches the port: it ends the outstanding burst's stay, with the grants that the entry
it frees makes possible, or is ignored (R145, R149 to R152). -/
def State.takeDeparture (s : State) (how : Departure) : State :=
  if s.answers how then (s.countDeparture how).depart.grantAll else s

/-- A departure after which a grant to link `l` brings a segment of some kind to the head (R126, R145). -/
def State.departureTakes (s : State) (how : Departure) (l : LinkNo) (kind : SegmentKind) : Bool :=
  let t := (s.countDeparture how).depart
  s.answers how && State.grantsTake t.waiting t l kind

end Sys2Proof.Machine
end

