-- ==== Sys2Proof/Machine/DataPath.lean ====
section
/-! DEFINITION. The commands of the data path: SEGMENT_ARRIVAL, OPEN, CLOSE and ABORT_REQUEST (06), GRANT (07,
section 7.2), and the answers of the frame-store controller and the timer (07, section 7.3). -/

namespace Sys2Proof.Machine

/-- A good segment with the payload its receiver reckons for it, none where fewer bytes were handed over: that
is no whole segment (R121; log 12). -/
def Segment.withPayload? (g : Segment) (size : PixelSize) (payload : List Byte) : Option Segment :=
  if g.payloadLength size ≤ payload.length then
    some { g with payload := payload.take (g.payloadLength size) }
  else none

/-- A segment arrival on a link in SEEKING or LOCKED, `header` being the segment of a good header and none for
a header error (R122, R123). -/
def State.takeSegment (s : State) (l : LinkNo) (header : Option Segment) (payload : List Byte) : State :=
  let k := look s.links l
  match k.state, header with
  | .disabled, _ => s
  | .seeking, none => s.setLink l (k.seek false)
  | .seeking, some g => if (g.withPayload? k.pixelSize payload).isSome then s.setLink l (k.seek true) else s
  | .locked, none => s.lockedError l
  | .locked, some g =>
    match g.withPayload? k.pixelSize payload with
    | some g => s.lockedGood l g
    | none => s

/-- SEGMENT_ARRIVAL (R121): not taken in DISABLED; else the header check, and what the link state makes of
it. -/
def execSegmentArrival (l : LinkNo) (header : Vector Byte 8) (payload : List Byte) (s : State) :
    Host.Outcome State Fault Refusal :=
  .next (s.takeSegment l (parseHeader header) payload)

/-- The event that brings an OPEN or CLOSE of a link to the head of its FIFO (R126): it joins the empty FIFO of
a LOCKED link, or a departure makes room for the LINE before it. Where it would not come to the head there is no such
event (log 1, log 2). -/
def State.headEvent (s : State) (l : LinkNo) (kind : SegmentKind) (how : HeadArrival) : State :=
  match how with
  | .joins channel a b =>
    let k := look s.links l
    if k.state = .locked ∧ k.fifo = [] then
      s.lockedGood l { kind := kind, channel := channel, fieldA := a, fieldB := b, payload := [] }
    else s
  | .behindGrantedLine departure =>
    if s.departureTakes departure l kind then s.takeDeparture departure else s

/-- OPEN (R129): an OPEN reaches the head of a link's FIFO and is processed in that event. -/
def execOpen (l : LinkNo) (how : HeadArrival) (s : State) : Host.Outcome State Fault Refusal :=
  .next (s.headEvent l .openFrame how)

/-- CLOSE (R132): a CLOSE reaches the head of a link's FIFO and is processed in that event. -/
def execClose (l : LinkNo) (how : HeadArrival) (s : State) : Host.Outcome State Fault Refusal :=
  .next (s.headEvent l .closeFrame how)

/-- GRANT (R144, R145): the link in turn is granted once its k fits, and each link after it likewise. An event that
makes a grant possible makes it itself, so that GRANT finds one only where no such event has come before (log 2). -/
def execGrant (s : State) : Host.Outcome State Fault Refusal := .next s.grantAll

/-- ABORT_REQUEST (R133): a travelling request is taken by the receiver of its link, which truncates the named
context's frame if it claims the named record; a waiting LINE of that frame then asks for 0, and the grants that this
makes possible are made (R145). A request that is not travelling is not taken (log 1). -/
def execAbortRequest (r : RecordNo) (l : LinkNo) (c : Channel) (s : State) :
    Host.Outcome State Fault Refusal :=
  let a : Abort := { record := r, context := { link := l, channel := c } }
  if a ∈ s.aborts then
    let s := { s with aborts := s.aborts.erase a }
    match s.context? l c with
    | some f => if f.claims r then .next (s.truncate l c).grantAll else .next s
    | none => .next s
  else .next s

/-- ACKNOWLEDGEMENT (R149, R152). -/
def execAcknowledgement (number : BitVec 4) (s : State) : Host.Outcome State Fault Refusal :=
  .next (s.takeDeparture (.acknowledged number))

/-- ERROR_RESPONSE (R150, R152). -/
def execErrorResponse (number : BitVec 4) (s : State) : Host.Outcome State Fault Refusal :=
  .next (s.takeDeparture (.refused number))

/-- ACK_TIMEOUT (R151, R152). -/
def execAckTimeout (s : State) : Host.Outcome State Fault Refusal := .next (s.takeDeparture .timedOut)

end Sys2Proof.Machine
end

