-- ==== Sys2Proof/Machine/Scan.lean ====
section
/-! DEFINITION. The scans of CREATE, AMEND and DEFINE-PLANE (R29, R40, R49), their completions (R29, R95,
R98), and the commands SCAN_STEP, CREATE_COMPLETION, AMEND_COMPLETION and DEFINE_PLANE_COMPLETION. -/

namespace Sys2Proof.Machine

/-! ## The steps of a scan -/

/-- What the next step of a scan finds: a conflict, another step, or the end without a conflict (R49). -/
inductive ScanVerdict where
  | conflict (status : Status) (payload : Payload)
  | goOn (position : ScanPosition)
  | clear
  deriving DecidableEq, Repr

/-- The list positions of the pairs of descriptions that share a pixel, the first at `start` (R40). -/
def conflictsFrom (start : Nat) : List DestDesc → List (Nat × Nat)
  | [] => []
  | d :: ds =>
    ((ds.zipIdx (start + 1)).filter fun e => d.rect.shares e.1.rect).map (fun e => (start, e.2)) ++
      conflictsFrom (start + 1) ds

/-- The pair that a mutual conflict names: the one conflicting pair, or a free choice among several
(log 6). -/
def chosenPair (draw : Nat) : List (Nat × Nat) → Option (Nat × Nat)
  | [] => none
  | [c] => some c
  | c :: d :: rest => some ((c :: d :: rest).getD (Config.mutualPair draw % (rest.length + 2)) c)

/-- The next pool visit of an overlap scan, or its end (R49). -/
def State.overlapNext (s : State) (start : Nat) : ScanVerdict :=
  match s.nextOccupied start with
  | some e => .goOn (.visit e)
  | none => .clear

/-- One step of the overlap scan of CREATE and AMEND. `own` is the amended record, whose entries are passed
over, and `named` the record that a mutual conflict names (R40). -/
def State.overlapVerdict (s : State) (own : Option RecordNo) (named : RecordNo) (ds : List DestDesc) :
    ScanPosition → ScanVerdict
  | .mutualComparison =>
    match chosenPair s.draws (conflictsFrom 1 ds) with
    | some (first, second) => .conflict .overlap (.mutualOverlap named first second)
    | none => s.overlapNext 0
  | .visit e =>
    match look s.pool e with
    | some en =>
      if own ≠ some en.owner ∧ (ds.any fun d => d.rect.shares en.rect) = true then
        .conflict .overlap (.poolOverlap en.owner e)
      else s.overlapNext (e.val + 1)
    | none => s.overlapNext (e.val + 1)
  | .planeRanges => .clear

/-- The descriptor a DEFINE-PLANE asks for, none for an undefinition (R28). -/
def PlaneParams.descriptor? (p : PlaneParams) : Option Plane :=
  if p.width = 0 then none
  else
    (PixelSize.ofByte? p.pixelSize).map fun z =>
      { base := p.base, pitch := p.pitch, width := p.width, height := p.height, pixelSize := z }

/-- The lowest other defined plane whose memory range shares a byte with the new one (R29). -/
def State.clashingPlane (s : State) (p : PlaneParams) : Option PlaneNo :=
  match p.descriptor? with
  | none => none
  | some d =>
    (List.finRange 4).find? fun q =>
      decide (q.val ≠ p.plane.toNat) &&
        (match look s.planes q with
         | some other => d.clashes other
         | none => false)

/-- The next pool visit of a plane scan, or its range comparison (R29, R49). -/
def State.planeNext (s : State) (start : Nat) : ScanPosition :=
  match s.nextOccupied start with
  | some e => .visit e
  | none => .planeRanges

/-- One step of the plane scan of DEFINE-PLANE (R29). -/
def State.planeVerdict (s : State) (p : PlaneParams) : ScanPosition → ScanVerdict
  | .visit e =>
    match look s.pool e with
    | some en =>
      if en.plane.val = p.plane.toNat then .conflict .planeInUse (.entryOwner e en.owner)
      else .goOn (s.planeNext (e.val + 1))
    | none => .goOn (s.planeNext (e.val + 1))
  | .planeRanges | .mutualComparison =>
    match s.clashingPlane p with
    | some q => .conflict .planeClash (.plane q)
    | none => .clear

/-- The record a CREATE would take: the lowest FREE one (R1). -/
def State.lowestFree (s : State) : Option RecordNo := s.freeRecords.head?

/-- What the next step of the scan in flight finds (R49). Only CREATE, AMEND and DEFINE-PLANE scan. -/
def State.scanVerdict (s : State) (op : ScanOperation) : ScanVerdict :=
  match op.request.command with
  | .create p => s.overlapVerdict none (s.lowestFree.getD 0) p.used op.position
  | .amend p => s.overlapVerdict p.handle.record? (p.handle.record?.getD 0) p.used op.position
  | .definePlane p => s.planeVerdict p op.position
  | .setAttributes _ | .retire _ _ | .lookup _ _ | .query _ | .configureLink _ | .configureFramestore _
  | .setLevels _ | .readCounters _ | .sync => .clear

/-! ## Completions -/

/-- The record a CREATE completion sets up (R4). -/
def CreateParams.placement (p : CreateParams) (k : Key) (entries : List EntryNo) : Placement where
  key := k
  label := labelOf p.labelPresent p.label
  slotA := some { phase := .active, width := p.width, height := p.height, entries := entries }
  slotB := none
  hold := p.hold
  interval := intervalOf p.interval
  retireOnSilence := p.retireOnSilence
  drain := none
  claim := none
  activity := .fresh
  age := 0
  counters := RecordCounters.zero

/-- A CREATE completes: the lowest FREE record becomes LIVE, its entries are allocated to Slot A and the Key
Index entry is set (R1, R4, R34, R95). -/
def State.completeCreate (s : State) (r : CommandRecord) (p : CreateParams) : State :=
  match s.lowestFree, Key.ofBytes? p.link p.channel with
  | some i, some k =>
    let entries := s.allocated p.used
    { (s.allocate i .a p.used).setPlacement i (p.placement k entries) with
      keyIndex := put s.keyIndex k.place (some i) }.finish r .ok (.created entries) (some (s.handleOf i))
  | _, _ => s.dropped

/-- The letter of the EMPTY slot an AMEND writes (R11). -/
def Placement.emptySlot (p : Placement) : SlotLetter := if p.slotA.isNone then .a else .b

/-- An AMEND completes: the EMPTY slot is written, allocated and STAGED, and the flip is taken in the same
event when the record is unclaimed (R11, R13, R34, R98). -/
def State.completeAmend (s : State) (r : CommandRecord) (p : AmendParams) : State :=
  match p.handle.record? with
  | none => s.dropped
  | some i =>
    match s.placement? i with
    | none => s.dropped
    | some b =>
      let x := b.emptySlot
      let entries := s.allocated p.used
      let staged := b.withSlot x
        (some { phase := .staged, width := p.width, height := p.height, entries := entries })
      let s' := (s.allocate i x p.used).setPlacement i staged
      if b.claim.isNone then (s'.takeFlip i).finish r .ok (.amended x true entries)
      else s'.finish r .ok (.amended x false entries)

/-- A DEFINE-PLANE completes: the descriptor is written, or the plane marked undefined (R29, R107). -/
def State.completeDefinePlane (s : State) (r : CommandRecord) (p : PlaneParams) : State :=
  match inRange? 4 p.plane with
  | none => s.dropped
  | some q =>
    { s with planes := put s.planes q p.descriptor? }.finish r .ok
      (.planeDefined p.plane p.descriptor?.isSome)

/-- The completion that ends a scan without a conflict (R53). -/
def State.completeScan (s : State) (r : CommandRecord) : State :=
  match r.command with
  | .create p => s.completeCreate r p
  | .amend p => s.completeAmend r p
  | .definePlane p => s.completeDefinePlane r p
  | .setAttributes _ | .retire _ _ | .lookup _ _ | .query _ | .configureLink _ | .configureFramestore _
  | .setLevels _ | .readCounters _ | .sync => s.dropped

/-- One step of the scan in flight, with the completion in the same event when the step ends the scan (R49). A
conflict draws a free value (log 6). -/
def State.stepScan (s : State) (op : ScanOperation) : State :=
  match s.scanVerdict op with
  | .conflict status payload => { s with draws := s.draws + 1 }.finish op.request status payload
  | .goOn position => { s with engine := .scan { op with position := position } }
  | .clear => s.completeScan op.request

/-- The next step ends the scan in flight, whose command satisfies a test (R49). -/
def State.scanEnds (s : State) (kind : Command → Bool) : Option ScanOperation :=
  match s.engine with
  | .scan op =>
    if kind op.request.command then
      match s.scanVerdict op with
      | .goOn _ => none
      | .conflict _ _ | .clear => some op
    else none
  | .idle | .fence _ => none

/-! ## The commands -/

/-- SCAN_STEP (R49): the engine takes the next step of the scan in flight, and completes the operation in the
same event when that step ends the scan. With no scan in flight there is no step (log 1). -/
def execScanStep (s : State) : Host.Outcome State Fault Refusal :=
  match s.engine with
  | .scan op => .next (s.stepScan op)
  | .idle | .fence _ => .next s

/-- The step that ends a scan, where the next step is one (log 2). -/
def State.endScan (s : State) (kind : Command → Bool) : State :=
  match s.scanEnds kind with
  | some op => s.stepScan op
  | none => s

/-- A CREATE. -/
def Command.isCreate : Command → Bool
  | .create _ => true
  | _ => false

/-- An AMEND. -/
def Command.isAmend : Command → Bool
  | .amend _ => true
  | _ => false

/-- A DEFINE-PLANE. -/
def Command.isDefinePlane : Command → Bool
  | .definePlane _ => true
  | _ => false

/-- CREATE_COMPLETION (R95): the step that ends a CREATE's scan, with OVERLAP or with the record made LIVE. -/
def execCreateCompletion (s : State) : Host.Outcome State Fault Refusal := .next (s.endScan Command.isCreate)

/-- AMEND_COMPLETION (R98): the step that ends an AMEND's scan, with OVERLAP or with the slot written. -/
def execAmendCompletion (s : State) : Host.Outcome State Fault Refusal := .next (s.endScan Command.isAmend)

/-- DEFINE_PLANE_COMPLETION (R29): the step that ends a DEFINE-PLANE's scan. -/
def execDefinePlaneCompletion (s : State) : Host.Outcome State Fault Refusal :=
  .next (s.endScan Command.isDefinePlane)

end Sys2Proof.Machine
end

