-- ==== Sys2Proof/Machine/Commands.lean ====
section
/-! DEFINITION. The starts of the twelve host commands (05): start checks in the order of each command's rule,
and, for a command with no phase, its completion in the same event (R46, R47). -/

namespace Sys2Proof.Machine

/-- A refusal of a command: its status and detail (R92). -/
abbrev Denial := Status × Payload

/-! ## Checks on a new slot (R36 to R38) -/

/-- The position, from 1, of the first description that fails a check. -/
def firstFailing (fails : DestDesc → Bool) (ds : List DestDesc) : Option Nat :=
  (ds.findIdx? fails).map fun n => n + 1

/-- A size of 0 or above 4096 (R36). -/
def badSize (n : U16) : Bool := decide (n.toNat = 0 ∨ 4096 < n.toNat)

/-- A description fails the geometry check against a source size (R36). -/
def DestDesc.badGeometry (d : DestDesc) (width height : U16) : Bool :=
  badSize d.width || badSize d.height || decide (8191 < d.x.toNat) || decide (8191 < d.y.toNat) ||
    decide (width.toNat < d.cropX.toNat + d.width.toNat) ||
    decide (height.toNat < d.cropY.toNat + d.height.toNat)

/-- The failing position of the geometry check, 0 for the source size or the count (R36, R94). -/
def geometryFault (width height : U16) (count : Byte) (ds : List DestDesc) : Option Nat :=
  if badSize width || badSize height then some 0
  else if count.toNat < 1 ∨ 4 < count.toNat then some 0
  else firstFailing (fun d => d.badGeometry width height) ds

/-- A destination extends past its plane (R37). -/
def DestDesc.outside (d : DestDesc) (p : Plane) : Bool :=
  decide (p.width.toNat < d.x.toNat + d.width.toNat) || decide (p.height.toNat < d.y.toNat + d.height.toNat)

/-- A test of a description's plane, passed when the plane is undefined (R37: that is an earlier check). -/
def State.onPlane (s : State) (test : DestDesc → Plane → Bool) (d : DestDesc) : Bool :=
  match s.plane? d.plane with
  | some p => test d p
  | none => false

/-- The plane, pixel-size, bounds and pool checks of a new slot on a link, each over the whole list before the
next (R37, R38). -/
def State.slotDenial (s : State) (l : LinkNo) (ds : List DestDesc) : Option Denial :=
  match firstFailing (fun d => (s.plane? d.plane).isNone) ds with
  | some n => some (.planeUndefined, .position n)
  | none =>
    match firstFailing (s.onPlane fun _ p => decide (p.pixelSize ≠ (look s.links l).pixelSize)) ds with
    | some n => some (.pixelMismatch, .position n)
    | none =>
      match firstFailing (s.onPlane DestDesc.outside) ds with
      | some n => some (.outsidePlane, .position n)
      | none =>
        if s.poolFree < ds.length then some (.poolShort, .shortage s.poolFree ds.length) else none

/-! ## CREATE and AMEND -/

/-- The first start check a CREATE fails (R94). -/
def State.createDenial (s : State) (p : CreateParams) : Option Denial :=
  match geometryFault p.width p.height p.count p.used with
  | some n => some (.badGeometry, .position n)
  | none =>
    match Key.ofBytes? p.link p.channel with
    | none => some (.badKey, .empty)
    | some k =>
      if (look s.links k.link).single = true ∧ k.channel ≠ 0 then some (.badKey, .empty)
      else
        match look s.keyIndex k.place with
        | some r => some (.duplicateKey, .record r)
        | none => if s.tableFree = 0 then some (.tableFull, .empty) else s.slotDenial k.link p.used

/-- What the check of a handle finds (R9). -/
inductive HandleCheck where
  | stale
  | draining (record : RecordNo) (placement : Placement)
  | live (record : RecordNo) (placement : Placement)
  deriving DecidableEq, Repr

/-- The handle check: index above 63, record FREE or another generation; then DRAINING or LIVE (R9). -/
def State.checkHandle (s : State) (h : Handle) : HandleCheck :=
  match h.record? with
  | none => .stale
  | some i =>
    match s.placement? i with
    | none => .stale
    | some p =>
      if (look s.records i).generation ≠ h.generation then .stale
      else if p.drain.isSome then .draining i p else .live i p

/-- The handle check of AMEND, SET-ATTRIBUTES and RETIRE, which refuse a DRAINING record (R9). -/
def State.checkLive (s : State) (h : Handle) : Denial ⊕ (RecordNo × Placement) :=
  match s.checkHandle h with
  | .stale => .inl (.staleHandle, .empty)
  | .draining _ _ => .inl (.notLive, .empty)
  | .live i p => .inr (i, p)

/-- The state of the slot that makes an AMEND pending: the one STAGED or SUPERSEDED (R11, R97). -/
def Placement.pendingPhase (p : Placement) : Option SlotPhase :=
  match p.find? .staged with
  | some _ => some .staged
  | none => (p.find? .superseded).map fun _ => SlotPhase.superseded

/-- The first start check an AMEND fails (R97). -/
def State.amendDenial (s : State) (p : AmendParams) : Option Denial :=
  match s.checkLive p.handle with
  | .inl d => some d
  | .inr (_, b) =>
    match b.pendingPhase with
    | some ph => some (.amendPending, .slotPhase ph)
    | none =>
      match geometryFault p.width p.height p.count p.used with
      | some n => some (.badGeometry, .position n)
      | none => s.slotDenial b.key.link p.used

/-- An operation enters SCAN at a step of its scan (R46, R49). -/
def State.enterScan (s : State) (x : Source) (r : CommandRecord) (position : ScanPosition) : State :=
  { s with engine := .scan { source := x, request := r, position := position } }

/-- A command's start checks: its refusal, or what follows when they pass (R46, R92). -/
def State.checked (s : State) (r : CommandRecord) (d : Option Denial) (passed : State) : State :=
  match d with
  | some (status, payload) => s.finish r status payload
  | none => passed

/-- A CREATE's parameters. -/
def Command.create? : Command → Option CreateParams
  | .create p => some p
  | _ => none

/-- CREATE (R94): the arbiter starts a CREATE. -/
def execCreate (s : State) : Host.Outcome State Fault Refusal :=
  .next (s.startHost Command.create? fun x r p s =>
    s.checked r (s.createDenial p) (s.enterScan x r .mutualComparison))

/-- An AMEND's parameters. -/
def Command.amend? : Command → Option AmendParams
  | .amend p => some p
  | _ => none

/-- AMEND (R97): the arbiter starts an AMEND. -/
def execAmend (s : State) : Host.Outcome State Fault Refusal :=
  .next (s.startHost Command.amend? fun x r p s =>
    s.checked r (s.amendDenial p) (s.enterScan x r .mutualComparison))

/-! ## DEFINE-PLANE -/

/-- A definition's parameters are out of range (R28, point 2). -/
def PlaneParams.badDefinition (p : PlaneParams) : Bool :=
  decide (8192 < p.width.toNat) || decide (p.height.toNat = 0 ∨ 8192 < p.height.toNat) ||
    decide (p.base.toNat % 256 ≠ 0) ||
    decide (p.pitch.toNat < 64 ∨ 65536 < p.pitch.toNat ∨ p.pitch.toNat % 64 ≠ 0) ||
    (match PixelSize.ofByte? p.pixelSize with
     | none => true
     | some z => decide (p.pitch.toNat < p.width.toNat * z.bytes)) ||
    decide (0xFFFFFFFF < p.base.toNat + p.pitch.toNat * p.height.toNat - 1)

/-- A DEFINE-PLANE's parameter checks (R28). -/
def PlaneParams.denial (p : PlaneParams) : Option Denial :=
  if 3 < p.plane.toNat ∨ (p.width ≠ 0 ∧ p.badDefinition = true) then some (.badParameter, .empty) else none

/-- A DEFINE-PLANE's parameters. -/
def Command.definePlane? : Command → Option PlaneParams
  | .definePlane p => some p
  | _ => none

/-- DEFINE_PLANE (R28): the arbiter starts a DEFINE-PLANE. -/
def execDefinePlane (s : State) : Host.Outcome State Fault Refusal :=
  .next (s.startHost Command.definePlane? fun x r p s =>
    s.checked r p.denial (s.enterScan x r (s.planeNext 0)))

/-! ## SET-ATTRIBUTES and RETIRE -/

/-- The attributes written into a record; a changed interval sets the age to 0 (R100, R101, R163). -/
def Placement.withAttributes (b : Placement) (p : AttributeParams) : Placement :=
  { b with
    hold := p.hold
    interval := intervalOf p.interval
    retireOnSilence := p.retireOnSilence
    label := labelOf p.labelPresent p.label
    age := if intervalOf p.interval = b.interval then b.age else 0 }

/-- A SET-ATTRIBUTES' parameters. -/
def Command.setAttributes? : Command → Option AttributeParams
  | .setAttributes p => some p
  | _ => none

/-- SET_ATTRIBUTES (R100): the handle checks, then all four attributes in the start event. -/
def execSetAttributes (s : State) : Host.Outcome State Fault Refusal :=
  .next (s.startHost Command.setAttributes? fun _ r p s =>
    match s.checkLive p.handle with
    | .inl d => s.finish r d.1 d.2
    | .inr (i, b) => (s.setPlacement i (b.withAttributes p)).finish r .ok .empty)

/-- A RETIRE's handle and abort option. -/
def Command.retire? : Command → Option (Handle × Bool)
  | .retire h a => some (h, a)
  | _ => none

/-- RETIRE (R102): the handle checks, then the record drains in the start event. -/
def execRetire (s : State) : Host.Outcome State Fault Refusal :=
  .next (s.startHost Command.retire? fun _ r p s =>
    match s.checkLive p.1 with
    | .inl d => s.finish r d.1 d.2
    | .inr (i, b) =>
      (s.drain i b .retire p.2).finish r .ok (.retired b.claim (b.claim.isSome && p.2)))

/-! ## LOOKUP and QUERY -/

/-- A LOOKUP's key bytes. -/
def Command.lookup? : Command → Option (Byte × Byte)
  | .lookup l c => some (l, c)
  | _ => none

/-- LOOKUP (R104): the Key Index entry of the key. -/
def execLookup (s : State) : Host.Outcome State Fault Refusal :=
  .next (s.startHost Command.lookup? fun _ r p s =>
    match Key.ofBytes? p.1 p.2 with
    | none => s.finish r .badKey .empty
    | some k =>
      match (look s.keyIndex k.place).bind fun i => (s.placement? i).map fun b => (i, b) with
      | none => s.finish r .noSuchKey .empty
      | some (i, b) => s.finish r .ok (.found b.activity b.hold) (some (s.handleOf i)))

/-- The entries on a slot's destination list with their contents, in list order (R105). -/
def State.slotEntries (s : State) (g : Option Slot) : List (EntryNo × Entry) :=
  match g with
  | none => []
  | some g => g.entries.filterMap fun e => (look s.pool e).map fun en => (e, en)

/-- The snapshot of a record (R105). -/
def State.snapshot (s : State) (i : RecordNo) : Payload :=
  .snapshot i (look s.records i)
    (s.slotEntries ((s.placement? i).bind fun p => p.slotA))
    (s.slotEntries ((s.placement? i).bind fun p => p.slotB))

/-- A QUERY's record index. -/
def Command.query? : Command → Option Byte
  | .query i => some i
  | _ => none

/-- QUERY (R105): a snapshot of a record by index. -/
def execQuery (s : State) : Host.Outcome State Fault Refusal :=
  .next (s.startHost Command.query? fun _ r b s =>
    match inRange? 64 b with
    | none => s.finish r .badParameter .empty
    | some i => s.finish r .ok (s.snapshot i))

/-! ## CONFIGURE-LINK -/

/-- The mode field: 0 tagged, 1 single, anything else neither (R108, R188). -/
def singleOf? (mode : Byte) : Option Bool := if mode = 0 then some false else if mode = 1 then some true else none

/-- The parameters of a CONFIGURE-LINK when all three are in range: link, mode and pixel size (R108). -/
def LinkParams.parse (p : LinkParams) : Option (LinkNo × Bool × PixelSize) :=
  match inRange? 6 p.link, singleOf? p.mode, PixelSize.ofByte? p.pixelSize with
  | some l, some single, some size => some (l, single, size)
  | _, _, _ => none

/-- The lowest-numbered record that is not FREE and holds a key on a link (R108). -/
def State.holderOf (s : State) (l : LinkNo) : Option RecordNo :=
  (List.finRange 64).find? fun i =>
    match s.placement? i with
    | some p => decide (p.key.link = l)
    | none => false

/-- A mode or pixel size other than the link's present one (R108, R109). -/
def Link.changes (k : Link) (single : Bool) (size : PixelSize) : Bool :=
  decide (k.single ≠ single ∨ k.pixelSize ≠ size)

/-- A configuration disables or restarts the link, so that its frames and its FIFO go (R136). -/
def Link.emptiedBy (k : Link) (enable single : Bool) (size : PixelSize) : Bool :=
  decide (k.state ≠ .disabled) && (!enable || k.changes single size)

/-- A link takes a configuration: enabled, disabled, restarted or left as it is (R109, R120, R136). -/
def State.configureLink (s : State) (l : LinkNo) (enable single : Bool) (size : PixelSize) : State :=
  let k := look s.links l
  let s' :=
    if k.emptiedBy enable single size then s.emptyReceiver l (if enable then .seeking else .disabled)
    else if k.state = .disabled ∧ enable = true then
      s.setLink l { k with state := .seeking, goodRun := 0, errorRun := 0 }
    else s
  s'.setLink l { look s'.links l with enable := enable, single := single, pixelSize := size }

/-- A CONFIGURE-LINK that passes its checks: the configuration and the result, and after a disable or restart the grants
that the withdrawn request makes possible (R109, R145). -/
def State.completeConfigureLink (s : State) (r : CommandRecord) (l : LinkNo) (enable single : Bool)
    (size : PixelSize) : State :=
  let s' := s.configureLink l enable single size
  let t := s'.finish r .ok (.linkConfigured l enable single size (look s'.links l).state)
  if (look s.links l).emptiedBy enable single size then t.grantAll else t

/-- A CONFIGURE-LINK's parameters. -/
def Command.configureLink? : Command → Option LinkParams
  | .configureLink p => some p
  | _ => none

/-- CONFIGURE_LINK (R108, R109). -/
def execConfigureLink (s : State) : Host.Outcome State Fault Refusal :=
  .next (s.startHost Command.configureLink? fun _ r p s =>
    match p.parse with
    | none => s.finish r .badParameter .empty
    | some (l, single, size) =>
      match s.holderOf l with
      | some i =>
        if (look s.links l).changes single size then s.finish r .linkInUse (.record i)
        else s.completeConfigureLink r l p.enable single size
      | none => s.completeConfigureLink r l p.enable single size)

/-! ## CONFIGURE-FRAMESTORE, SET-LEVELS, READ-COUNTERS and SYNC -/

/-- A CONFIGURE-FRAMESTORE's timeout. -/
def Command.configureFramestore? : Command → Option Byte
  | .configureFramestore t => some t
  | _ => none

/-- CONFIGURE_FRAMESTORE (R111): a new acknowledge timeout; the outstanding burst keeps its own. -/
def execConfigureFramestore (s : State) : Host.Outcome State Fault Refusal :=
  .next (s.startHost Command.configureFramestore? fun _ r t s =>
    if t = 0 then s.finish r .badParameter .empty
    else { s with ackTimeout := t }.finish r .ok (.timeout t))

/-- A SET-LEVELS' five levels. -/
def Command.setLevels? : Command → Option (Vector Byte 5)
  | .setLevels ls => some ls
  | _ => none

/-- The source number of the first level above 7 (R112). -/
def firstBadLevel (ls : Vector Byte 5) : Option (Fin 5) :=
  (List.finRange 5).find? fun n => decide (7 < (look ls n).toNat)

/-- A level byte as a level (R68); callers have checked that it is at most 7. -/
def levelOf (b : Byte) : Fin 8 := ⟨b.toNat % 8, Nat.mod_lt _ (by decide)⟩

/-- SET_LEVELS (R112): all five levels, or none. -/
def execSetLevels (s : State) : Host.Outcome State Fault Refusal :=
  .next (s.startHost Command.setLevels? fun _ r ls s =>
    match firstBadLevel ls with
    | some n => s.finish r .badParameter (.sourceNumber n)
    | none => { s with levels := ls.map levelOf }.finish r .ok (.levels (ls.map levelOf)))

/-- A READ-COUNTERS' parameters. -/
def Command.readCounters? : Command → Option CounterParams
  | .readCounters p => some p
  | _ => none

/-- A record's counters read and, with the clear option, set to 0 (R114). -/
def State.readRecordCounters (s : State) (r : CommandRecord) (p : CounterParams) : State :=
  match s.checkHandle p.handle with
  | .stale => s.finish r .staleHandle .empty
  | .draining i b | .live i b =>
    (if p.clear then s.setPlacement i { b with counters := RecordCounters.zero } else s).finish r .ok
      (.recordCounters p.clear b.counters)

/-- A link's counters read and, with the clear option, set to 0 (R114). -/
def State.readLinkCounters (s : State) (r : CommandRecord) (p : CounterParams) : State :=
  match inRange? 6 p.target0 with
  | none => s.finish r .badParameter .empty
  | some l =>
    let k := look s.links l
    (if p.clear then s.setLink l { k with counters := Vector.replicate 8 0 } else s).finish r .ok
      (.linkCounters p.clear k.counters)

/-- The frame-store port's counters read and, with the clear option, set to 0 (R114, R155). -/
def State.readPortCounters (s : State) (r : CommandRecord) (p : CounterParams) : State :=
  (if p.clear then { s with fsRefused := 0, fsTimeout := 0 } else s).finish r .ok
    (.portCounters p.clear s.fsRefused s.fsTimeout)

/-- READ_COUNTERS (R113, R114): by target kind 0 record, 1 link, 2 frame-store port. -/
def execReadCounters (s : State) : Host.Outcome State Fault Refusal :=
  .next (s.startHost Command.readCounters? fun _ r p s =>
    if p.kind = 0 then s.readRecordCounters r p
    else if p.kind = 1 then s.readLinkCounters r p
    else if p.kind = 2 then s.readPortCounters r p
    else s.finish r .badParameter .empty)

/-- A SYNC. -/
def Command.sync? : Command → Option Unit
  | .sync => some ()
  | _ => none

/-- SYNC (R116): the fence set is every burst in the Burst Queue at the start (R52); with none the command
completes at once. -/
def execSync (s : State) : Host.Outcome State Fault Refusal :=
  .next (s.startHost Command.sync? fun x r _ s =>
    s.startFence
      { source := x, request := .sync r, awaited := s.bursts.map fun _ => true, target := [] })

/-- The departure that ends a fence, where the next departure is one (log 2). -/
def State.endFence (s : State) (kind : FenceRequest → Bool) (how : Departure) : State :=
  if s.fenceEnds kind then s.takeDeparture how else s

/-- A SYNC in FENCE. -/
def FenceRequest.isSync : FenceRequest → Bool
  | .sync _ => true
  | .commit _ | .release _ => false

/-- SYNC_COMPLETION (R52): the departure of the marked burst ends the fence and posts OK. -/
def execSyncCompletion (how : Departure) (s : State) : Host.Outcome State Fault Refusal :=
  .next (s.endFence FenceRequest.isSync how)

end Sys2Proof.Machine
end

