-- ==== Sys2Proof/Machine/Internal.lean ====
section
/-! DEFINITION. The internal operations EXPIRE, COMMIT and RELEASE (03, section 3.5), and the departures that
end the fences of the last two. -/

namespace Sys2Proof.Machine

/-- The start check of an EXPIRE: LIVE, an interval, and SILENT (R61). -/
def Placement.expires (p : Placement) : Bool :=
  p.drain.isNone && p.interval.isSome && decide (p.activity = .silent)

/-- An EXPIRE that passes its check: SILENT is posted, and with retire-on-silence the record drains as by a
RETIRE with its abort option (R62). -/
def State.expire (s : State) (i : RecordNo) (p : Placement) : State :=
  let notice := Response.silent (s.handleOf i) p.retireOnSilence p.label
  if p.retireOnSilence then (s.drain i p .silence true).post notice else s.post notice

/-- EXPIRE (R61, R62): dropped, or completed in its start event. -/
def execExpire (s : State) : Host.Outcome State Fault Refusal :=
  .next (s.startInternal .expirySet fun i s =>
    match s.placement? i with
    | some p => if p.expires then s.expire i p else s.dropped
    | none => s.dropped)

/-- The marks of the bursts in the Burst Queue that are tagged with a record and one of some slots (R51). -/
def State.tagged (s : State) (i : RecordNo) (slots : List SlotLetter) : List Bool :=
  s.bursts.map fun b => decide (b.record = i) && slots.contains b.slot

/-- COMMIT (R63): the SUPERSEDED slot is the fence target, and the fence set is its bursts (R51). -/
def execCommit (s : State) : Host.Outcome State Fault Refusal :=
  .next (s.startInternal .commitSet fun i s =>
    match s.placement? i with
    | none => s.dropped
    | some p =>
      let target := p.slotsIn .superseded
      s.startFence { source := .commitSet, request := .commit i, awaited := s.tagged i target, target := target })

/-- A COMMIT in FENCE. -/
def FenceRequest.isCommit : FenceRequest → Bool
  | .commit _ => true
  | .sync _ | .release _ => false

/-- COMMIT_COMPLETION (R15): the departure that ends a COMMIT's fence, with its completion. -/
def execCommitCompletion (how : Departure) (s : State) : Host.Outcome State Fault Refusal :=
  .next (s.endFence FenceRequest.isCommit how)

/-- RELEASE (R64): every slot that is not EMPTY is the fence target, and the fence set is their bursts
(R51). -/
def execRelease (s : State) : Host.Outcome State Fault Refusal :=
  .next (s.startInternal .releaseSet fun i s =>
    match s.placement? i with
    | none => s.dropped
    | some p =>
      let target := p.occupiedSlots
      s.startFence { source := .releaseSet, request := .release i, awaited := s.tagged i target, target := target })

/-- A RELEASE in FENCE. -/
def FenceRequest.isRelease : FenceRequest → Bool
  | .release _ => true
  | .sync _ | .commit _ => false

/-- RELEASE_COMPLETION (R7): the departure that ends a RELEASE's fence, with its completion. -/
def execReleaseCompletion (how : Departure) (s : State) : Host.Outcome State Fault Refusal :=
  .next (s.endFence FenceRequest.isRelease how)

end Sys2Proof.Machine
end

