-- ==== Sys2Proof/Machine/Formats.lean ====
section
/-! DEFINITION. The byte layouts of what the part sends: reply codes and READ-STATUS (R187), and response
records (R189). Multi-byte fields go most significant byte first (10). -/

namespace Sys2Proof.Machine

/-! ## Fields -/

/-- A small number as one byte. -/
def byteOf (n : Nat) : Byte := BitVec.ofNat 8 n

/-- A two-byte field, most significant byte first (10). -/
def bytes16 (w : U16) : List Byte := [w.extractLsb' 8 8, w.extractLsb' 0 8]

/-- A four-byte field, most significant byte first (10). -/
def bytes32 (w : U32) : List Byte :=
  [w.extractLsb' 24 8, w.extractLsb' 16 8, w.extractLsb' 8 8, w.extractLsb' 0 8]

/-- A flag sent as a whole byte: 01h set, 00h clear (R187, R189; log 18 for the hold and cleared flags). -/
def flagWhole (b : Bool) : Byte := if b then 1 else 0

/-- A handle as two bytes (10). -/
def Handle.bytes (h : Handle) : List Byte := [h.index, h.generation]

/-- A key as two bytes (10). -/
def Key.bytes (k : Key) : List Byte := [byteOf k.link.val, byteOf k.channel.val]

/-- An optional two-byte label (R189). -/
def labelBytes : Option U16 → List Byte
  | some l => bytes16 l
  | none => []

/-! ## Codes -/

/-- The reply codes (R187). -/
inductive Reply where
  | accepted
  | queueFull
  | slotBusy
  | nothing
  | withdrewSlot
  | malformed
  deriving DecidableEq, Repr

/-- The values of the reply codes (R187). -/
def Reply.byte : Reply → Byte
  | .accepted => 0xA0
  | .queueFull => 0xA1
  | .slotBusy => 0xA2
  | .nothing => 0xA3
  | .withdrewSlot => 0xA5
  | .malformed => 0xAF

/-- The values of the status codes (R189). -/
def Status.byte : Status → Byte
  | .ok => 0x00
  | .badGeometry => 0x01
  | .badKey => 0x02
  | .badParameter => 0x03
  | .duplicateKey => 0x04
  | .tableFull => 0x05
  | .planeUndefined => 0x06
  | .pixelMismatch => 0x07
  | .outsidePlane => 0x08
  | .poolShort => 0x09
  | .overlap => 0x0A
  | .staleHandle => 0x0B
  | .notLive => 0x0C
  | .amendPending => 0x0D
  | .noSuchKey => 0x0E
  | .planeInUse => 0x0F
  | .planeClash => 0x10
  | .linkInUse => 0x11

/-- A slot letter: 0 A, 1 B (R189). -/
def SlotLetter.byte : SlotLetter → Byte
  | .a => 0
  | .b => 1

/-- A slot state: 1 ACTIVE, 2 STAGED, 3 SUPERSEDED (R189). -/
def SlotPhase.byte : SlotPhase → Byte
  | .active => 1
  | .staged => 2
  | .superseded => 3

/-- An activity: 0 NEW, 1 FLOWING, 2 SILENT (R189). -/
def Activity.byte : Activity → Byte
  | .fresh => 0
  | .flowing => 1
  | .silent => 2

/-- A drain cause: 0 RETIRE, 1 SILENCE (R189). -/
def DrainCause.byte : DrainCause → Byte
  | .retire => 0
  | .silence => 1

/-- A link state: 0 DISABLED, 1 SEEKING, 2 LOCKED (R187). -/
def LinkState.byte : LinkState → Byte
  | .disabled => 0
  | .seeking => 1
  | .locked => 2

/-- The engine state: 0 IDLE, 1 SCAN, 2 FENCE (R187). -/
def Engine.byte : Engine → Byte
  | .idle => 0
  | .scan _ => 1
  | .fence _ => 2

/-! ## Response records (R189) -/

/-- One entry of a snapshot: index, plane, x, y, width, height, crop x, crop y (R189). -/
def entryBytes (e : EntryNo × Entry) : List Byte :=
  [byteOf e.1.val, byteOf e.2.plane.val] ++ bytes16 e.2.x ++ bytes16 e.2.y ++ bytes16 e.2.width ++
    bytes16 e.2.height ++ bytes16 e.2.cropX ++ bytes16 e.2.cropY

/-- One slot of a snapshot, nothing for an EMPTY slot (R189). -/
def slotBytes (x : SlotLetter) (g : Option Slot) (es : List (EntryNo × Entry)) : List Byte :=
  match g with
  | none => []
  | some g => [x.byte, g.phase.byte] ++ bytes16 g.width ++ bytes16 g.height ++ [byteOf es.length] ++
      es.flatMap entryBytes

/-- The snapshot of a record that is not FREE, after its first three bytes (R189). The hold and retire-on-silence flags
and the interval have no place in it (log 23). -/
def placementBytes (p : Placement) (a b : List (EntryNo × Entry)) (draw : Nat) : List Byte :=
  p.key.bytes ++
  [flagByte 0x03 (bit p.label.isSome 0 ||| bit p.claim.isSome 1) draw 0] ++
  labelBytes p.label ++
  (p.drain.map DrainCause.byte).toList ++
  ((p.claim.map Key.bytes).getD [0, 0]) ++
  [p.activity.byte] ++ bytes16 p.age ++
  bytes32 p.counters.placed ++ bytes32 p.counters.held ++ bytes32 p.counters.refused ++
  bytes32 p.counters.damaged ++
  [byteOf p.occupiedSlots.length] ++ slotBytes .a p.slotA a ++ slotBytes .b p.slotB b

/-- The lifecycle state: 0 FREE, 1 LIVE, 2 DRAINING (R189). -/
def Record.lifecycleByte (r : Record) : Byte :=
  match r.placement with
  | none => 0
  | some p => if p.drain.isSome then 2 else 1

/-- The bytes of a result's payload (R189). -/
def Payload.bytes (draw : Nat) : Payload → List Byte
  | .empty => []
  | .position p => [byteOf p]
  | .record i => [byteOf i.val]
  | .sourceNumber n => [byteOf n.val]
  | .shortage free needed => [byteOf free, byteOf needed]
  | .mutualOverlap i first second => [byteOf i.val, 0, byteOf first, byteOf second]
  | .poolOverlap i e => [byteOf i.val, 1, byteOf e.val]
  | .slotPhase ph => [ph.byte]
  | .entryOwner e i => [byteOf e.val, byteOf i.val]
  | .plane p => [byteOf p.val]
  | .created es => byteOf es.length :: es.map fun e => byteOf e.val
  | .amended x flipped es => [x.byte, flagWhole flipped, byteOf es.length] ++ es.map fun e => byteOf e.val
  | .retired claim abortSent =>
    flagByte 0x03 (bit claim.isSome 0 ||| bit abortSent 1) draw 0 :: (claim.map Key.bytes).getD []
  | .found a hold => [a.byte, flagWhole hold]
  | .planeDefined p isDefined => [p, flagWhole isDefined]
  | .linkConfigured l enable single size state =>
    [byteOf l.val, flagByte 0x01 (bit enable 0) draw 0, flagWhole single, byteOf size.bytes, state.byte]
  | .timeout t => [t]
  | .levels ls => ls.toList.map fun n => byteOf n.val
  | .recordCounters cleared c => [0, flagWhole cleared] ++ bytes32 c.placed ++ bytes32 c.held ++
      bytes32 c.refused ++ bytes32 c.damaged
  | .linkCounters cleared c => [1, flagWhole cleared] ++ c.toList.flatMap bytes16
  | .portCounters cleared r t => [2, flagWhole cleared] ++ bytes16 r ++ bytes16 t
  | .snapshot i r a b =>
    [byteOf i.val, r.lifecycleByte, r.generation] ++
      (match r.placement with
       | none => []
       | some p => placementBytes p a b draw)

/-- A notice: kind 02h, name, handle, flag byte, the drain cause in FREED, and the label (R189). -/
def noticeBytes (name : Byte) (h : Handle) (retiring : Bool) (cause : List Byte) (label : Option U16)
    (draw : Nat) : List Byte :=
  [0x02, name] ++ h.bytes ++ [flagByte 0x03 (bit label.isSome 0 ||| bit retiring 1) draw 0] ++ cause ++
    labelBytes label

/-- A response record as POP-RESPONSE sends it (R189). -/
def Response.bytes (draw : Nat) : Response → List Byte
  | .result tag code status handle payload =>
    [0x01, tag, code, status.byte, flagWhole handle.isSome] ++ ((handle.map Handle.bytes).getD []) ++
      payload.bytes draw
  | .freed h cause label => noticeBytes 0x01 h false [cause.byte] label draw
  | .amendApplied h label => noticeBytes 0x02 h false [] label draw
  | .silent h retiring label => noticeBytes 0x03 h retiring [] label draw

/-! ## Replies that read (R187) -/

/-- The READ-STATUS byte of one link: state and attention flag (R187). -/
def State.linkStatusByte (s : State) (l : LinkNo) : Byte :=
  flagByte 0x83 ((look s.links l).state.byte ||| bit (look s.links l).attention 7) s.draws (7 + l.val)

/-- The 17 bytes of READ-STATUS (R179, R187). -/
def State.statusBytes (s : State) : List Byte :=
  [ s.engine.byte,
    byteOf s.commandQueue.length,
    flagByte 0x07 (bit s.backup.isSome 0 ||| bit s.gateOpen 1 ||| bit s.prioritySlot.isSome 2) s.draws 2,
    byteOf s.responses.length, byteOf s.reserved,
    byteOf s.tableFree, byteOf s.poolFree ] ++
  (List.finRange 6).map s.linkStatusByte ++
  [ flagByte 0x01 (bit s.fsAttention 0) s.draws 13,
    byteOf s.refillMark.val,
    s.irqMask,
    flagByte 0x0F s.conditions s.draws 16 ]

/-- The 5 bytes of READ-LINK for a link (R180, R187). -/
def State.linkBytes (s : State) (l : LinkNo) : List Byte :=
  let k := look s.links l
  [ Reply.accepted.byte, k.state.byte, flagByte 0x03 (bit k.enable 0 ||| bit k.single 1) s.draws 2,
    byteOf k.pixelSize.bytes, flagWhole k.attention ]

/-- The 7 bytes of READ-FRAMESTORE (R181, R187). -/
def State.framestoreBytes (s : State) : List Byte :=
  [flagWhole s.fsAttention] ++ bytes16 s.fsRefused ++ bytes16 s.fsTimeout ++
    [byteOf s.bursts.length, s.ackTimeout]

end Sys2Proof.Machine
end

