-- ==== Sys2Proof/Machine/Port.lean ====
section
/-! DEFINITION. The management port (09): the frame in progress, power-on, the effect of each transaction at its taking
and the reply it fixes, and TABLE-RESET. -/

namespace Sys2Proof.Machine

/-- The reply part is fixed at the taking (R171). -/
def State.answer (s : State) (bytes : List Byte) : State := { s with reply := bytes }

/-- A one-byte reply (R187). -/
def State.answerCode (s : State) (r : Reply) : State := s.answer [r.byte]

/-! ## Frames (R170 to R173, R186) -/

/-- Writes how the port stands to the chip select. -/
def State.withFrame (s : State) (f : PortFrame) : State := { s with frame := f }

/-- A transaction is taken at the end of its request part (R171), and its frame is then in its reply part until MCS# rises
(R170). Its command brings the frame from the falling edge of MCS# that begins it: a frame that was in progress has ended
before it, and what was received in that is discarded (R170, R172; log 4). While MCS# is ignored no frame begins, and
nothing is taken (R186; log 25). -/
def State.taking (s : State) (effect : State → State) : State :=
  match s.frame with
  | .ignored => s
  | .idle | .inProgress _ | .replying => (effect s).withFrame .replying

/-- How the port stands to the chip select after power-on (R186): a frame in progress is abandoned, and its MCS#, low still
when RESETN rises, is ignored until it has risen (log 25). -/
def PortFrame.afterPowerOn : PortFrame → PortFrame
  | .idle => .idle
  | .inProgress _ | .replying | .ignored => .ignored

/-- POWER_ON (R186): every block at its power-on values. The queue of commands that wait and the count of free
values drawn are the model's, not the part's (log 16, log 20). -/
def execPowerOn (s : State) : Host.Outcome State Fault Refusal :=
  .next { State.reset with pending := s.pending, draws := s.draws, frame := s.frame.afterPowerOn }

/-- A frame is cut (R172). Where MCS# has risen before the request part was complete, everything received is discarded; an
MCS# ignored since power-on has then risen too, and the next falling edge begins a frame (R186). Where MCS# has risen after
it, the frame is over and its transaction keeps its effect (R172). Where MCS# is low still, a frame is in progress with what
it has received, unless MCS# is ignored; bytes that make a whole request part are not this event (log 1, log 25). -/
def State.cutFrame (s : State) : CutFrame → State
  | .ended _ => s.withFrame .idle
  | .underWay received =>
    match s.frame with
    | .ignored => s
    | .idle | .inProgress _ | .replying =>
      if requestIncomplete received then s.withFrame (.inProgress received) else s
  | .replied => if s.frame = .replying then s.withFrame .idle else s

/-- INCOMPLETE_FRAME (R172): no state of the part changes but the frame in progress. -/
def execIncompleteFrame (received : CutFrame) (s : State) : Host.Outcome State Fault Refusal :=
  .next (s.cutFrame received)

/-- MALFORMED (R173): a code that names none of the ten transactions is answered MALFORMED, with no other
effect. A code that names one is not this event (log 1). -/
def execMalformed (code : Byte) (s : State) : Host.Outcome State Fault Refusal :=
  if code ∈ transactionCodes then .next s
  else .next (s.taking fun s => s.answerCode .malformed)

/-! ## Transactions on the request sources -/

/-- The record part of a push: as many bytes as the length says. With fewer the frame ends incomplete and has no
effect (R172); bytes beyond them fall in the reply part and are not examined (R170; log 21). -/
def pushRecord (length : Byte) (bytes : List Byte) : Option (List Byte) :=
  if length.toNat ≤ bytes.length then some (bytes.take length.toNat) else none

/-- A push of a record: taken with MALFORMED when its code or length is wrong (R91, R174, R175), and else handed to its
source, which answers it. A push that ends short of its record is an incomplete frame (R172). -/
def State.takePush (s : State) (length : Byte) (bytes : List Byte) (accept : CommandRecord → State → State) :
    State :=
  match pushRecord length bytes with
  | none => s.withFrame .idle
  | some record =>
    s.taking fun s =>
      match parseRecord record with
      | none => s.answerCode .malformed
      | some r => accept r s

/-- The Command Queue is handed a record (R78, R174): ACCEPTED at the tail below level 16, or QUEUE_FULL. -/
def State.acceptCommand (r : CommandRecord) (s : State) : State :=
  if s.commandQueue.length < 16 then { s with commandQueue := s.commandQueue ++ [r] }.answerCode .accepted
  else s.answerCode .queueFull

/-- PUSH_COMMAND (R174, R78). -/
def execPushCommand (length : Byte) (bytes : List Byte) (s : State) : Host.Outcome State Fault Refusal :=
  .next (s.takePush length bytes State.acceptCommand)

/-- A preempting command that waits in the slot cancels a scan whose source has a level number strictly greater
than the Priority Slot's (R54, R87). -/
def State.preempt (s : State) (r : CommandRecord) : State :=
  match s.engine with
  | .scan op => if r.preempt = true ∧ s.level .prioritySlot < s.level op.source then s.cancelScan op else s
  | .idle | .fence _ => s

/-- The Priority Slot is handed a record (R84, R87, R175): ACCEPTED into an empty slot with the cancellation that may
follow, or SLOT_BUSY. -/
def State.acceptPriority (r : CommandRecord) (s : State) : State :=
  match s.prioritySlot with
  | some _ => s.answerCode .slotBusy
  | none => ({ s with prioritySlot := some r }.preempt r).answerCode .accepted

/-- PUSH_PRIORITY (R175, R84, R87). -/
def execPushPriority (length : Byte) (bytes : List Byte) (s : State) : Host.Outcome State Fault Refusal :=
  .next (s.takePush length bytes State.acceptPriority)

/-- The waiting command leaves the Priority Slot, and the reply names it (R86, R176). -/
def State.withdrawSlot (s : State) : State :=
  match s.prioritySlot with
  | some r => { s with prioritySlot := none }.answer [Reply.withdrewSlot.byte, r.tag, r.command.code]
  | none => s.answer [Reply.nothing.byte, 0, 0]

/-- WITHDRAW_PRIORITY (R86, R176). -/
def execWithdrawPriority (s : State) : Host.Outcome State Fault Refusal := .next (s.taking State.withdrawSlot)

/-- FLUSH_QUEUE (R82, R177). -/
def execFlushQueue (s : State) : Host.Outcome State Fault Refusal :=
  .next (s.taking fun s => { s with commandQueue := [], backup := none }.answerCode .accepted)

/-! ## Transactions that read, and the port's controls -/

/-- The oldest filled record leaves the Response Queue behind its length byte, or EMPTY (R58, R178). -/
def State.popOldest (s : State) : State :=
  match s.responses with
  | [] => s.answer [0]
  | r :: rest =>
    { s with responses := rest, draws := s.draws + 1 }.answer (byteOf (r.bytes s.draws).length :: r.bytes s.draws)

/-- POP_RESPONSE (R58, R178). -/
def execPopResponse (s : State) : Host.Outcome State Fault Refusal := .next (s.taking State.popOldest)

/-- READ_STATUS (R179): one consistent view, and no change. -/
def execReadStatus (s : State) : Host.Outcome State Fault Refusal :=
  .next (s.taking fun s => { s with draws := s.draws + 1 }.answer s.statusBytes)

/-- A link's state, configuration and attention flag, and the flag is cleared; a number above 5 gives MALFORMED (R135,
R180). -/
def State.reportLink (link : Byte) (s : State) : State :=
  match inRange? 6 link with
  | none => s.answer [Reply.malformed.byte, 0, 0, 0, 0]
  | some l =>
    { s with
      links := put s.links l { look s.links l with attention := false }
      draws := s.draws + 1 }.answer (s.linkBytes l)

/-- READ_LINK (R180, R135). -/
def execReadLink (link : Byte) (s : State) : Host.Outcome State Fault Refusal :=
  .next (s.taking (State.reportLink link))

/-- READ_FRAMESTORE (R181, R156): the frame-store port's flag, counters, queue count and timeout, and the flag
is cleared. -/
def execReadFramestore (s : State) : Host.Outcome State Fault Refusal :=
  .next (s.taking fun s => { s with fsAttention := false }.answer s.framestoreBytes)

/-- Mask, refill mark and gate together; a mark above 15 gives MALFORMED (R182). -/
def State.writeControls (mask mark gate : Byte) (s : State) : State :=
  match inRange? 16 mark with
  | none => s.answerCode .malformed
  | some m => { s with irqMask := mask, refillMark := m, gateOpen := gate.getLsbD 0 }.answerCode .accepted

/-- SET_PORT_CONTROL (R182). -/
def execSetPortControl (mask mark gate : Byte) (s : State) : Host.Outcome State Fault Refusal :=
  .next (s.taking (State.writeControls mask mark gate))

/-! ## TABLE-RESET -/

/-- A record at TABLE-RESET: FREE, with its generation raised if it was LIVE or DRAINING (R26). -/
def Record.tableReset (r : Record) : Record :=
  { generation := if r.placement.isSome then r.generation + 1 else r.generation, placement := none }

/-- A link receiver at TABLE-RESET: contexts IDLE and FIFO empty, all else kept (R138). -/
def Link.tableReset (k : Link) : Link := { k with contexts := Vector.replicate 16 none, fifo := [] }

/-- The reset of the table side: R26, R43, R66, R90, R138, R158, R169. Abort requests still travelling have no
effect any more (R26, R66, R138; log 8). The back-ups of R183 are the Command Queue's one entry (R85; log 26). -/
def State.tableReset (s : State) : State :=
  { s with
    records := s.records.map Record.tableReset
    keyIndex := Vector.replicate 96 none
    pool := Vector.replicate 128 none
    engine := .idle
    responses := []
    reserved := 0
    aborts := []
    commandQueue := []
    backup := none
    prioritySlot := none
    releaseSet := Vector.replicate 64 false
    commitSet := Vector.replicate 64 false
    expirySet := Vector.replicate 64 false
    links := s.links.map Link.tableReset
    bursts := []
    timer := none }

/-- TABLE_RESET (R183). -/
def execTableReset (s : State) : Host.Outcome State Fault Refusal :=
  .next (s.taking fun s => s.tableReset.answerCode .accepted)

end Sys2Proof.Machine
end

