-- ==== Sys2Proof/Machine/Silence.lean ====
section
/-! DEFINITION. The Silence Monitor (08): age steps at a millisecond boundary and the expiry of a record. -/

namespace Sys2Proof.Machine

/-- A record is aged: LIVE, with an interval, and NEW or FLOWING (R160). -/
def Placement.aged (p : Placement) : Bool :=
  p.drain.isNone && p.interval.isSome && decide (p.activity ≠ .silent)

/-- The age step of a record brings it to its interval (R161). -/
def Placement.reaches (p : Placement) : Bool := p.aged && decide (p.interval = some (p.age + 1))

/-- An age step of a record: nothing when it is not aged, else its age rises by one, and it becomes SILENT when
that reaches the interval (R160, R161). -/
def Placement.ageStep (p : Placement) : Placement :=
  if p.aged then
    { p with age := p.age + 1, activity := if p.reaches then .silent else p.activity }
  else p

/-- An age step of one place of the table (R160). -/
def Record.ageStep (r : Record) : Record := { r with placement := r.placement.map Placement.ageStep }

/-- The age step of a place of the table is an expiry (R161). -/
def Record.reaches (r : Record) : Bool :=
  match r.placement with
  | some p => p.reaches
  | none => false

/-- A millisecond boundary of the timebase: every aged record takes one age step, and the Expiry bit of each record
that expires is set (R160, R161, R167). -/
def State.boundary (s : State) : State :=
  { s with
    timebase := s.timebase + 1
    records := s.records.map Record.ageStep
    expirySet := Vector.ofFn fun i => look s.expirySet i || (look s.records i).reaches }

/-- MILLISECOND_STEP (R160, R161): a millisecond boundary. -/
def execMillisecondStep (s : State) : Host.Outcome State Fault Refusal := .next s.boundary

/-- EXPIRY (R161): the millisecond boundary at which the age of a record reaches its interval (log 2, log 10). A record
whose next step does not reach it does not expire at the next boundary (log 1). -/
def execExpiry (i : RecordNo) (s : State) : Host.Outcome State Fault Refusal :=
  if (look s.records i).reaches then .next s.boundary else .next s

end Sys2Proof.Machine
end

