-- ==== Sys2Proof/Machine/Dispatch.lean ====
section
/-! DEFINITION. The dispatch: one arm for each command, in the order of spec/opcode_table.json. -/

namespace Sys2Proof.Machine

/-- The effect of a command on everything but the queue of commands that wait. -/
def exec (i : Instr) (s : State) : Host.Outcome State Fault Refusal :=
  match i with
  | .powerOn => Sys2Proof.Machine.execPowerOn s
  | .incompleteFrame received => Sys2Proof.Machine.execIncompleteFrame received s
  | .malformed code => Sys2Proof.Machine.execMalformed code s
  | .pushCommand length bytes => Sys2Proof.Machine.execPushCommand length bytes s
  | .pushPriority length bytes => Sys2Proof.Machine.execPushPriority length bytes s
  | .withdrawPriority => Sys2Proof.Machine.execWithdrawPriority s
  | .flushQueue => Sys2Proof.Machine.execFlushQueue s
  | .popResponse => Sys2Proof.Machine.execPopResponse s
  | .readStatus => Sys2Proof.Machine.execReadStatus s
  | .readLink link => Sys2Proof.Machine.execReadLink link s
  | .readFramestore => Sys2Proof.Machine.execReadFramestore s
  | .setPortControl mask mark gate => Sys2Proof.Machine.execSetPortControl mask mark gate s
  | .tableReset => Sys2Proof.Machine.execTableReset s
  | .create => Sys2Proof.Machine.execCreate s
  | .amend => Sys2Proof.Machine.execAmend s
  | .definePlane => Sys2Proof.Machine.execDefinePlane s
  | .scanStep => Sys2Proof.Machine.execScanStep s
  | .createCompletion => Sys2Proof.Machine.execCreateCompletion s
  | .amendCompletion => Sys2Proof.Machine.execAmendCompletion s
  | .definePlaneCompletion => Sys2Proof.Machine.execDefinePlaneCompletion s
  | .setAttributes => Sys2Proof.Machine.execSetAttributes s
  | .retire => Sys2Proof.Machine.execRetire s
  | .lookup => Sys2Proof.Machine.execLookup s
  | .query => Sys2Proof.Machine.execQuery s
  | .configureLink => Sys2Proof.Machine.execConfigureLink s
  | .configureFramestore => Sys2Proof.Machine.execConfigureFramestore s
  | .setLevels => Sys2Proof.Machine.execSetLevels s
  | .readCounters => Sys2Proof.Machine.execReadCounters s
  | .sync => Sys2Proof.Machine.execSync s
  | .syncCompletion how => Sys2Proof.Machine.execSyncCompletion how s
  | .expire => Sys2Proof.Machine.execExpire s
  | .commit => Sys2Proof.Machine.execCommit s
  | .commitCompletion how => Sys2Proof.Machine.execCommitCompletion how s
  | .release => Sys2Proof.Machine.execRelease s
  | .releaseCompletion how => Sys2Proof.Machine.execReleaseCompletion how s
  | .segmentArrival link header payload => Sys2Proof.Machine.execSegmentArrival link header payload s
  | .openFrame link how => Sys2Proof.Machine.execOpen link how s
  | .closeFrame link how => Sys2Proof.Machine.execClose link how s
  | .grant => Sys2Proof.Machine.execGrant s
  | .abortRequest record link channel => Sys2Proof.Machine.execAbortRequest record link channel s
  | .acknowledgement number => Sys2Proof.Machine.execAcknowledgement number s
  | .errorResponse number => Sys2Proof.Machine.execErrorResponse number s
  | .ackTimeout => Sys2Proof.Machine.execAckTimeout s
  | .millisecondStep => Sys2Proof.Machine.execMillisecondStep s
  | .expiry record => Sys2Proof.Machine.execExpiry record s

end Sys2Proof.Machine
end

