-- ==== Sys2Proof/Safety.lean ====
section
/-! DEFINITION. What the claims are stated with: when a start is taken, what a handle names, what a host command
leaves behind, and the invariants that every step keeps. -/

namespace Sys2Proof.Machine

/-! ## Starts and results -/

/-- The start that the arbiter takes: the engine is IDLE, the Response Queue has a free entry, source `x` offers
`q`, and no other source offers with a lower level number, or an equal level number and a lower source number
(R69, R70). -/
def State.Starts (s : State) (x : Source) (q : Request) : Prop :=
  s.engine = .idle ∧ s.responses.length + s.reserved < 32 ∧ s.offer x = some q ∧
    ∀ (y : Source) (r : Request), s.offer y = some r → y ≠ x →
      s.level x < s.level y ∨ (s.level x = s.level y ∧ x.number < y.number)

/-- What remains of a host command that starts from `x` and completes in its start event, beside its own effects:
the request has left its source and its result is the newest response (R46, R53, R92). -/
def State.answered (s : State) (x : Source) (r : CommandRecord) (status : Status) (handle : Option Handle)
    (payload : Payload) : State :=
  { s.begun x (.command r) with
    reserved := s.reserved
    responses := s.responses ++ [.result r.tag r.command.code status handle payload] }

/-- An operation in flight completes with a response: its reserved entry is filled and the engine is IDLE (R53,
R57). -/
def State.concluded (s : State) (r : Response) : State :=
  { s with responses := s.responses ++ [r], reserved := s.reserved - 1, engine := .idle }

/-- The command that starts a host command (R46). -/
def Command.startedBy : Command → Instr
  | .create _ => .create
  | .amend _ => .amend
  | .setAttributes _ => .setAttributes
  | .retire _ _ => .retire
  | .lookup _ _ => .lookup
  | .query _ => .query
  | .definePlane _ => .definePlane
  | .configureLink _ => .configureLink
  | .configureFramestore _ => .configureFramestore
  | .setLevels _ => .setLevels
  | .readCounters _ => .readCounters
  | .sync => .sync

/-- The command that starts what a source offers; none where the source does not offer such a request (R46, R67). -/
def Source.startedBy : Source → Request → Option Instr
  | .prioritySlot, .command r | .commandQueue, .command r => some r.command.startedBy
  | .releaseSet, .internal _ => some .release
  | .commitSet, .internal _ => some .commit
  | .expirySet, .internal _ => some .expire
  | .prioritySlot, .internal _ | .commandQueue, .internal _ => none
  | .releaseSet, .command _ | .commitSet, .command _ | .expirySet, .command _ => none

/-- The fifteen commands that start an operation. -/
def startCommands : List Instr :=
  [.create, .amend, .definePlane, .setAttributes, .retire, .lookup, .query, .configureLink, .configureFramestore,
    .setLevels, .readCounters, .sync, .expire, .commit, .release]

/-! ## Handles (R9) -/

/-- The handle's index is above 63, or its record is FREE or of another generation. -/
def State.Stale (s : State) (h : Handle) : Prop :=
  ∀ i : RecordNo, i.val = h.index.toNat →
    s.placement? i = none ∨ (look s.records i).generation ≠ h.generation

/-- The handle names record `i`, whose fields are `p`. -/
def State.Names (s : State) (h : Handle) (i : RecordNo) (p : Placement) : Prop :=
  i.val = h.index.toNat ∧ s.placement? i = some p ∧ (look s.records i).generation = h.generation

/-! ## Bursts and frames -/

/-- The outstanding burst has left the head of the Burst Queue and the next one, if any, is issued (R148, R149),
with the engine as it was. -/
def State.departed (s : State) : State :=
  match s.bursts.tail with
  | [] => { s with bursts := [], timer := none }
  | b :: rest => { s with bursts := b :: rest, issueNumber := s.issueNumber + 1, timer := some s.ackTimeout }

/-- What a departure counts first (R149 to R151). -/
def State.counted (s : State) : Departure → State
  | .acknowledged _ => s
  | .refused _ => { s with fsRefused := saturate s.fsRefused, fsAttention := true }
  | .timedOut => { s with fsTimeout := saturate s.fsTimeout, fsAttention := true }

/-- The frame-store command that brings a departure. -/
def departureCommand : Departure → Instr
  | .acknowledged n => .acknowledgement n
  | .refused n => .errorResponse n
  | .timedOut => .ackTimeout

/-- A context of link `l` holds a frame that claims record `i`. -/
def State.ClaimedOn (s : State) (l : LinkNo) (i : RecordNo) : Prop :=
  ∃ c f, s.context? l c = some f ∧ f.claims i = true

/-- From `s` to `t` every open frame of link `l` is truncated (R128): its contexts are IDLE, TRUNCATED counts each of
them, each record claimed there is unclaimed as damaged with its generation kept (R8), with its Release bit set if it is
DRAINING and with no abort request for it travelling on (log 9), and every other record, request and link is as it was. -/
def State.FramesTruncated (s t : State) (l : LinkNo) : Prop :=
  (∀ c, t.context? l c = none) ∧
  (∀ m, m ≠ l → look t.links m = look s.links m) ∧
  (look (look t.links l).counters LinkCounter.truncated.place).toNat =
    min 65535 ((look (look s.links l).counters LinkCounter.truncated.place).toNat +
      (List.finRange 16).countP fun c => (s.context? l c).isSome) ∧
  (∀ i p, s.placement? i = some p → s.ClaimedOn l i →
    look t.records i = { look s.records i with placement := some { p.count .damaged with claim := none } } ∧
      look t.releaseSet i = (look s.releaseSet i || p.drain.isSome)) ∧
  (∀ i, ¬ s.ClaimedOn l i → look t.records i = look s.records i ∧ look t.releaseSet i = look s.releaseSet i) ∧
  (∀ a : Abort, a ∈ t.aborts ↔ a ∈ s.aborts ∧ ¬ s.ClaimedOn l a.record)

/-! ## The accounts: queues, reservation, fence, FIFOs (R45, R57, R78, R79, R119, R120, R125, R147, R148, R171) -/

/-- A command with a scan (R47). -/
def Command.scans (c : Command) : Bool := c.isCreate || c.isAmend || c.isDefinePlane

/-- The operation in flight. A scan holds a scanning command from the Priority Slot, or from the Command Queue
with the back-up entry empty. A fence waits for a burst that is in the Burst Queue. -/
def State.EngineAccounted (s : State) : Prop :=
  match s.engine with
  | .idle => s.reserved = 0
  | .scan op =>
    s.reserved = 1 ∧ op.request.command.scans = true ∧
      (op.source = .prioritySlot ∨ (op.source = .commandQueue ∧ s.backup = none))
  | .fence op => s.reserved = 1 ∧ awaiting op.awaited = true ∧ op.awaited.length ≤ s.bursts.length

/-- A link receiver: at most 4 segments wait, behind a LINE; only a LOCKED link holds segments or frames; in single
mode only context 0 holds a frame; the runs are in range; enable is set exactly outside DISABLED. -/
def Link.Accounted (k : Link) : Prop :=
  k.fifo.length ≤ 4 ∧
  (∀ g ∈ k.fifo.head?, g.kind = .line) ∧
  (k.state ≠ .locked → k.fifo = [] ∧ ∀ c : Channel, look k.contexts c = none) ∧
  (k.single = true → ∀ c : Channel, c ≠ 0 → look k.contexts c = none) ∧
  k.goodRun ≤ 4 ∧ k.errorRun ≤ 8 ∧
  (k.state = .seeking → k.goodRun < 4) ∧ (k.state = .locked → k.errorRun < 8) ∧
  (k.enable = true ↔ k.state ≠ .disabled)

/-- The accounts of the part; a frame in its request part has not received it whole (R171). -/
def State.Accounted (s : State) : Prop :=
  (∀ request, s.frame = .inProgress request → requestIncomplete request = true) ∧
  s.responses.length + s.reserved ≤ 32 ∧
  s.commandQueue.length ≤ 16 ∧
  s.EngineAccounted ∧
  s.bursts.length ≤ 32 ∧
  (s.timer.isSome = true ↔ s.bursts ≠ []) ∧
  ∀ l : LinkNo, (look s.links l).Accounted

/-! ## The tables agree (R10, R16, R18, R23, R77) -/

/-- R10: exactly one slot is ACTIVE. -/
def State.OneActive (s : State) : Prop :=
  ∀ (i : RecordNo) (p : Placement), s.placement? i = some p → (p.slotsIn .active).length = 1

/-- R23: the Key Index maps a key to a record exactly when the record is LIVE and holds the key. -/
def State.KeysAgree (s : State) : Prop :=
  ∀ (k : Key) (i : RecordNo),
    look s.keyIndex k.place = some i ↔ ∃ p, s.placement? i = some p ∧ p.drain = none ∧ p.key = k

/-- R16: a claim names the frame context of the record's own key, and that context's frame claims the record; and
a frame that claims a record is named by the record's claim. -/
def State.ClaimsAgree (s : State) : Prop :=
  (∀ (i : RecordNo) (p : Placement) (c : Key), s.placement? i = some p → p.claim = some c →
    c = p.key ∧ ∃ f, s.context? c.link c.channel = some f ∧ f.claims i = true) ∧
  (∀ (l : LinkNo) (c : Channel) (f : Frame) (i : RecordNo), s.context? l c = some f → f.claims i = true →
    ∃ p, s.placement? i = some p ∧ p.claim = some { link := l, channel := c })

/-- R18, R133: an abort request that travels names a DRAINING record and the frame context that claims it. That
none travels to an ended claim is the model's (log 9). -/
def State.AbortsAgree (s : State) : Prop :=
  ∀ a ∈ s.aborts, ∃ p, s.placement? a.record = some p ∧ p.drain.isSome = true ∧ p.claim = some a.context

/-- R77: a Release bit is set only for a DRAINING record that is unclaimed, a Commit bit only for a record with a
SUPERSEDED slot, an Expiry bit only for a record that is not FREE. -/
def State.BitsAgree (s : State) : Prop :=
  (∀ i : RecordNo, look s.releaseSet i = true →
    ∃ p, s.placement? i = some p ∧ p.drain.isSome = true ∧ p.claim = none) ∧
  (∀ i : RecordNo, look s.commitSet i = true →
    ∃ p, s.placement? i = some p ∧ p.slotsIn .superseded ≠ []) ∧
  (∀ i : RecordNo, look s.expirySet i = true → (s.placement? i).isSome = true)

/-- What the start checks of the operation in flight found still holds (R48): a CREATE's key is free and a record
is FREE; an AMEND's record is LIVE with one slot EMPTY; a DEFINE-PLANE's plane is one of the four; a COMMIT's
target is the SUPERSEDED slot; a RELEASE's record is DRAINING and unclaimed, and its target is every slot that is
not EMPTY. -/
def State.OperationHolds (s : State) : Prop :=
  match s.engine with
  | .idle => True
  | .scan op =>
    match op.request.command with
    | .create p =>
      s.lowestFree.isSome = true ∧
        ∃ k, Key.ofBytes? p.link p.channel = some k ∧ look s.keyIndex k.place = none
    | .amend p => ∃ i b, s.Names p.handle i b ∧ b.drain = none ∧ b.pendingPhase = none
    | .definePlane p => p.plane.toNat < 4
    | _ => False
  | .fence op =>
    match op.request with
    | .sync _ => True
    | .commit i =>
      ∃ p, s.placement? i = some p ∧ op.target = p.slotsIn .superseded ∧ op.target ≠ [] ∧
        look s.commitSet i = false
    | .release i =>
      ∃ p, s.placement? i = some p ∧ p.drain.isSome = true ∧ p.claim = none ∧
        op.target = p.occupiedSlots ∧ look s.releaseSet i = false

/-- The tables, the claims, the abort requests, the pending sets and the operation in flight agree. -/
def State.TablesAgree (s : State) : Prop :=
  s.OneActive ∧ s.KeysAgree ∧ s.ClaimsAgree ∧ s.AbortsAgree ∧ s.BitsAgree ∧ s.OperationHolds

/-! ## Windows and bursts (R30, R33, R39, R143) -/

/-- R33: an entry is OCCUPIED exactly when it is on the destination list of a slot that is not EMPTY, and each
list has 1 to 4 distinct entries that it owns. -/
def State.PoolAgrees (s : State) : Prop :=
  (∀ (e : EntryNo) (en : Entry), look s.pool e = some en →
    ∃ p g, s.placement? en.owner = some p ∧ p.slot en.slot = some g ∧ e ∈ g.entries) ∧
  (∀ (i : RecordNo) (p : Placement) (x : SlotLetter) (g : Slot), s.placement? i = some p → p.slot x = some g →
    g.entries.Nodup ∧ 1 ≤ g.entries.length ∧ g.entries.length ≤ 4 ∧
      ∀ e ∈ g.entries, ∃ en, look s.pool e = some en ∧ en.owner = i ∧ en.slot = x)

/-- R39: two OCCUPIED entries share a pixel of a plane only if both belong to one record and to different slots
of it. -/
def State.NoSharedPixel (s : State) : Prop :=
  ∀ (e e' : EntryNo) (en en' : Entry), e ≠ e' → look s.pool e = some en → look s.pool e' = some en' →
    en.rect.shares en'.rect = true → en.owner = en'.owner ∧ en.slot ≠ en'.slot

/-- A burst writes one row of the rectangle of an entry on its plane (R142). -/
def Burst.within (b : Burst) (e : Entry) (p : Plane) : Prop :=
  b.length = e.width.toNat * p.pixelSize.bytes ∧ b.data.length = b.length ∧
  ∃ row : Nat, e.y.toNat ≤ row ∧ row < e.y.toNat + e.height.toNat ∧
    b.address.toNat = p.base.toNat + row * p.pitch.toNat + e.x.toNat * p.pixelSize.bytes

/-- R143: every burst in the Burst Queue is tagged with a record and slot whose entries are OCCUPIED, and lies
inside the rectangle of one of them. -/
def State.BurstsInside (s : State) : Prop :=
  ∀ b ∈ s.bursts, ∃ (p : Placement) (g : Slot) (e : EntryNo) (en : Entry) (pl : Plane),
    s.placement? b.record = some p ∧ p.slot b.slot = some g ∧ e ∈ g.entries ∧ look s.pool e = some en ∧
      look s.planes en.plane = some pl ∧ b.within en pl

/-! ## What the windows rest on (R14, R28, R30, R36, R37, R48, R51, R121, R145) -/

/-- A descriptor that R28 accepts. -/
def Plane.Sound (p : Plane) : Prop :=
  1 ≤ p.width.toNat ∧ p.width.toNat ≤ 8192 ∧ 1 ≤ p.height.toNat ∧ p.height.toNat ≤ 8192 ∧
    p.base.toNat % 256 = 0 ∧ 64 ≤ p.pitch.toNat ∧ p.pitch.toNat ≤ 65536 ∧ p.pitch.toNat % 64 = 0 ∧
    p.width.toNat * p.pixelSize.bytes ≤ p.pitch.toNat ∧ p.last ≤ 0xFFFFFFFF

/-- R30: the memory ranges of the defined planes are disjoint, and each descriptor is one that R28 accepts. -/
def State.PlanesApart (s : State) : Prop :=
  (∀ (q : PlaneNo) (p : Plane), look s.planes q = some p → p.Sound) ∧
  ∀ (q q' : PlaneNo) (p p' : Plane), q ≠ q' → look s.planes q = some p → look s.planes q' = some p' →
    p.last < p'.base.toNat ∨ p'.last < p.base.toNat

/-- R36, R37: an OCCUPIED entry's rectangle lies on a defined plane of its link's pixel size and inside it, and its crop
inside the source size of its slot. -/
def State.EntriesFit (s : State) : Prop :=
  ∀ (e : EntryNo) (en : Entry), look s.pool e = some en →
    ∃ (p : Placement) (g : Slot) (pl : Plane), s.placement? en.owner = some p ∧ p.slot en.slot = some g ∧
      look s.planes en.plane = some pl ∧ pl.pixelSize = (look s.links p.key.link).pixelSize ∧
      1 ≤ en.width.toNat ∧ en.width.toNat ≤ 4096 ∧ 1 ≤ en.height.toNat ∧ en.height.toNat ≤ 4096 ∧
      en.x.toNat + en.width.toNat ≤ pl.width.toNat ∧ en.y.toNat + en.height.toNat ≤ pl.height.toNat ∧
      en.cropX.toNat + en.width.toNat ≤ g.width.toNat ∧ en.cropY.toNat + en.height.toNat ≤ g.height.toNat

/-- R14, R121: a frame that claims a record has the source size of the record's ACTIVE slot, and a segment that waits has
the payload its receiver reckons. -/
def State.FramesFit (s : State) : Prop :=
  (∀ (l : LinkNo) (c : Channel) (f : Frame) (i : RecordNo), s.context? l c = some f → f.claims i = true →
    ∃ (p : Placement) (x : SlotLetter) (g : Slot), s.placement? i = some p ∧ p.slot x = some g ∧
      g.phase = .active ∧ g.width = f.width ∧ g.height = f.height) ∧
  ∀ (l : LinkNo), ∀ g ∈ (look s.links l).fifo, g.payload.length = g.payloadLength (look s.links l).pixelSize

/-- What an overlap scan that stands at a position has found so far (R40, R49): no two new destinations share a pixel, and
none shares one with an entry below the next visit, but for the amended record's own. -/
def State.OverlapFound (s : State) (own : Option RecordNo) (ds : List DestDesc) : ScanPosition → Prop
  | .mutualComparison => True
  | .visit e =>
    (ds.Pairwise fun d d' => d.rect.shares d'.rect = false) ∧
      ∀ (f : EntryNo) (en : Entry), f < e → look s.pool f = some en → own ≠ some en.owner →
        ∀ d ∈ ds, d.rect.shares en.rect = false
  | .planeRanges => False

/-- What a plane scan that stands at a position has found so far (R29, R49): no entry below the next visit lies on the
plane. -/
def State.PlaneFound (s : State) (p : PlaneParams) : ScanPosition → Prop
  | .visit e => ∀ (f : EntryNo) (en : Entry), f < e → look s.pool f = some en → en.plane.val ≠ p.plane.toNat
  | .planeRanges => ∀ (f : EntryNo) (en : Entry), look s.pool f = some en → en.plane.val ≠ p.plane.toNat
  | .mutualComparison => False

/-- R48: the start checks of the scan in flight still pass, and what it has found so far still holds. -/
def State.ScanHolds (s : State) : Prop :=
  match s.engine with
  | .idle | .fence _ => True
  | .scan op =>
    match op.request.command with
    | .create p => s.createDenial p = none ∧ s.OverlapFound none p.used op.position
    | .amend p => s.amendDenial p = none ∧ s.OverlapFound p.handle.record? p.used op.position
    | .definePlane p => p.denial = none ∧ s.PlaneFound p op.position
    | _ => False

/-- R51: in the fence of a COMMIT or RELEASE every queued burst of the fenced slots is marked. -/
def State.FenceHolds (s : State) : Prop :=
  match s.engine with
  | .idle | .scan _ => True
  | .fence op =>
    match op.request with
    | .sync _ => True
    | .commit i | .release i =>
      ∀ (n : Nat) (b : Burst), s.bursts[n]? = some b → b.record = i → b.slot ∈ op.target →
        op.awaited[n]? = some true

/-- The windows stay apart, the bursts stay inside them, with what both rest on; and no grant that is possible waits
(R30, R33, R39, R143, R145). -/
def State.WindowsApart (s : State) : Prop :=
  s.PoolAgrees ∧ s.NoSharedPixel ∧ s.BurstsInside ∧ s.PlanesApart ∧ s.EntriesFit ∧ s.FramesFit ∧ s.ScanHolds ∧
    s.FenceHolds ∧ s.granted = none

end Sys2Proof.Machine
end

