-- ==== Sys2Proof/Certificates/Slice0/Obligations.lean ====
section
/-! DEFINITION. The statements for the provers. Each holds for every state unless it names its premises; a conclusion
`exec c s = .next t` gives the whole next state, so every part of `s` that `t` does not name is unchanged. -/

open Sys2Proof Sys2Proof.Machine

/-! ## The step, the reset -/

/-- A step takes the command at the front of the queue and runs it on the state with the queue's rest. An empty queue
idles: the model's choice, log 3. -/
def Obligations.StepRunsTheFrontCommand : Prop :=
  (∀ (c : Instr) (rest : List Instr) (s : State), s.pending = c :: rest →
    step s = exec c { s with pending := rest }) ∧
  ∀ s : State, s.pending = [] → step s = .next s

/-- No command stops the part, which is the model's reading of a manual that gives no event such an end (log 22), and none
touches the queue of commands that wait, POWER_ON included (the model's choice, log 20). -/
def Obligations.NoCommandStopsThePart : Prop :=
  ∀ (c : Instr) (s : State), ∃ t, exec c s = .next t ∧ t.pending = s.pending

/-- POWER_ON leaves every block at its power-on values (R25, R31, R43, R65, R89, R118, R137, R158, R169, R186): a frame in
progress is abandoned, an MCS# that is low still is ignored until it has risen, and MDO is at high impedance. The queue, the
draw count, the travelling aborts, the last reply, that MCS# stands at the release of RESETN as it did at its fall, and MDO
under an ignored MCS# are the model's own (logs 8, 16, 17, 20, 25, 27). -/
def Obligations.PowerOnLeavesThePowerOnValues : Prop :=
  (∀ s : State,
    (s.frame = .idle → exec .powerOn s = .next { State.reset with pending := s.pending, draws := s.draws }) ∧
    (s.frame ≠ .idle → exec .powerOn s =
      .next { State.reset with pending := s.pending, draws := s.draws, frame := .ignored }) ∧
    ∀ t, exec .powerOn s = .next t → t.mdo = .highImpedance) ∧
    State.reset.frame = .idle ∧ State.reset.mdo = .highImpedance ∧
    (∀ i, look State.reset.records i = { generation := 0, placement := none }) ∧
    (∀ k, look State.reset.keyIndex k = none) ∧ (∀ e, look State.reset.pool e = none) ∧
    (∀ p, look State.reset.planes p = none) ∧ State.reset.tableFree = 64 ∧ State.reset.poolFree = 128 ∧
    State.reset.engine = .idle ∧ State.reset.responses = [] ∧ State.reset.reserved = 0 ∧
    State.reset.responseFree = 32 ∧ State.reset.levels = #v[0, 1, 2, 3, 4] ∧
    (∀ i, look State.reset.releaseSet i = false ∧ look State.reset.commitSet i = false ∧
      look State.reset.expirySet i = false) ∧
    State.reset.commandQueue = [] ∧ State.reset.backup = none ∧ State.reset.prioritySlot = none ∧
    State.reset.gateOpen = true ∧ State.reset.refillMark = 4 ∧ State.reset.queueLow = true ∧
    (∀ x, State.reset.offer x = none) ∧
    (∀ l, look State.reset.links l = Link.reset ∧ State.reset.roomRequest l = none) ∧
    Link.reset.state = .disabled ∧ Link.reset.enable = false ∧ Link.reset.single = false ∧
    Link.reset.pixelSize = .two ∧ Link.reset.goodRun = 0 ∧ Link.reset.errorRun = 0 ∧ Link.reset.fifo = [] ∧
    (∀ c, look Link.reset.contexts c = none) ∧ (∀ n, look Link.reset.counters n = 0) ∧
    Link.reset.attention = false ∧ State.reset.lastGranted = 5 ∧ State.reset.bursts = [] ∧
    State.reset.burstRoom = 32 ∧ State.reset.outstanding = false ∧ State.reset.issueNumber = 15 ∧
    State.reset.ackTimeout = 64 ∧ State.reset.fsRefused = 0 ∧ State.reset.fsTimeout = 0 ∧
    State.reset.fsAttention = false ∧ State.reset.timebase = 0 ∧ State.reset.irqMask &&& 0x0F = 0 ∧
    State.reset.irqnLow = false ∧ State.reset.framestoreOutput = none

/-! ## The management port (09)

A transaction is taken unless MCS# is ignored since power-on; its command brings its frame from the falling edge of MCS#,
and leaves it in its reply part, where it stands until MCS# rises (R170, R171; log 4). What happens while MCS# is ignored
is in `FramesFollowTheChipSelect`. -/

/-- INCOMPLETE_FRAME changes nothing but the frame: with MCS# risen in a request part there is none, with MCS# low still it
holds what it has received, and with MCS# risen in or behind its reply part it is over. A push of fewer bytes than its length
byte says is an incomplete frame too (R172; log 21). While an MCS# that was low when RESETN rose is ignored, no frame begins
and no transaction is taken, until MCS# has risen (R170, R186). MDO is at high impedance while MCS# is high and while it is
ignored, carries no information in the request part, and sends the reply fixed at the taking in the reply part, each byte
most significant bit first (R170, R171, R185, R186). The bits sampled on MDI spell the command of the whole bytes they make,
most significant bit first; bits of a byte that is cut change nothing in it (R170, R172). What INCOMPLETE_FRAME tells of is
the model's choice (log 25), and MDO while MCS# is ignored the model's reading (log 27). -/
def Obligations.FramesFollowTheChipSelect : Prop :=
  (∀ (received : List Byte) (s : State),
    exec (.incompleteFrame (.ended received)) s = .next { s with frame := .idle } ∧
    (s.frame ≠ .ignored → requestIncomplete received = true →
      exec (.incompleteFrame (.underWay received)) s = .next { s with frame := .inProgress received }) ∧
    (s.frame = .replying → exec (.incompleteFrame .replied) s = .next { s with frame := .idle }) ∧
    (s.frame ≠ .replying → exec (.incompleteFrame .replied) s = .next s)) ∧
  (∀ (length : Byte) (bytes : List Byte) (s : State), bytes.length < length.toNat →
    exec (.pushCommand length bytes) s = .next { s with frame := .idle } ∧
    exec (.pushPriority length bytes) s = .next { s with frame := .idle }) ∧
  (∀ s : State, s.frame = .ignored →
    (∀ received, exec (.incompleteFrame (.underWay received)) s = .next s) ∧
    (∀ code : Byte, exec (.malformed code) s = .next s) ∧
    (∀ (length : Byte) (bytes : List Byte), length.toNat ≤ bytes.length →
      exec (.pushCommand length bytes) s = .next s ∧ exec (.pushPriority length bytes) s = .next s) ∧
    exec .withdrawPriority s = .next s ∧ exec .flushQueue s = .next s ∧ exec .popResponse s = .next s ∧
    exec .readStatus s = .next s ∧ (∀ link : Byte, exec (.readLink link) s = .next s) ∧
    exec .readFramestore s = .next s ∧
    (∀ mask mark gate : Byte, exec (.setPortControl mask mark gate) s = .next s) ∧ exec .tableReset s = .next s) ∧
  let bits (b : Byte) : List Bool := [b.getLsbD 7, b.getLsbD 6, b.getLsbD 5, b.getLsbD 4, b.getLsbD 3, b.getLsbD 2,
    b.getLsbD 1, b.getLsbD 0]
  (∀ s : State,
    (s.frame = .idle ∨ s.frame = .ignored → s.mdo = .highImpedance) ∧
    (∀ received, s.frame = .inProgress received → s.mdo = .sending []) ∧
    (s.frame = .replying → s.mdo = .sending (s.reply.flatMap bits))) ∧
  ∀ (bytes : List Byte) (cut : List Bool), cut.length < 8 → mdiCommand (bytes.flatMap bits ++ cut) = frameCommand bytes

/-- Where MCS# is not ignored since power-on, a code that names no transaction, a push whose record has an unlisted code
or a length that is not the code's, a READ-LINK above link 5 and a SET-PORT-CONTROL with a mark above 15 are answered
MALFORMED and change no state of the part beside their frame and their reply (R173). That the command brings its frame whole
from its falling edge, and leaves it in its reply part, is log 4. -/
def Obligations.MalformedChangesNothing : Prop :=
  ∀ s : State, s.frame ≠ .ignored →
  (∀ code : Byte, code ∉ transactionCodes →
    exec (.malformed code) s = .next { s with frame := .replying, reply := [0xAF] }) ∧
  (∀ (length : Byte) (bytes : List Byte), length.toNat ≤ bytes.length →
    recordLength? (byteAt (bytes.take length.toNat) 0) ≠ some length.toNat →
    exec (.pushCommand length bytes) s = .next { s with frame := .replying, reply := [0xAF] } ∧
    exec (.pushPriority length bytes) s = .next { s with frame := .replying, reply := [0xAF] }) ∧
  (∀ link : Byte, 5 < link.toNat →
    exec (.readLink link) s = .next { s with frame := .replying, reply := [0xAF, 0, 0, 0, 0] }) ∧
  ∀ mask mark gate : Byte, 15 < mark.toNat →
    exec (.setPortControl mask mark gate) s = .next { s with frame := .replying, reply := [0xAF] }

/-- A record with a listed code and that code's length is taken with the code, tag and preempt flag sent. PUSH_COMMAND
appends it below level 16 and answers ACCEPTED; at 16 it answers QUEUE_FULL and discards it (R78, R91, R174, R188). The frame is
left in its reply part (log 4). -/
def Obligations.PushCommandAppendsBelowSixteen : Prop :=
  (∀ bytes : List Byte, recordLength? (byteAt bytes 0) = some bytes.length →
    ∃ r, parseRecord bytes = some r ∧ r.command.code = byteAt bytes 0 ∧ r.tag = byteAt bytes 1 ∧
      r.preempt = (byteAt bytes 2).getLsbD 0) ∧
  ∀ (length : Byte) (bytes : List Byte) (r : CommandRecord) (s : State), s.frame ≠ .ignored →
    length.toNat ≤ bytes.length → parseRecord (bytes.take length.toNat) = some r →
    (s.commandQueue.length < 16 → exec (.pushCommand length bytes) s =
      .next { s with frame := .replying, commandQueue := s.commandQueue ++ [r], reply := [0xA0] }) ∧
    (16 ≤ s.commandQueue.length → exec (.pushCommand length bytes) s =
      .next { s with frame := .replying, reply := [0xA1] })

/-- PUSH_PRIORITY fills the empty slot and answers ACCEPTED, or answers SLOT_BUSY. With the preempt flag set it cancels
a scan whose source has a level number above the Priority Slot's, in the same event: the command goes unchanged to the
back-up entry, the reservation is released and the engine is IDLE. Otherwise the engine is left alone (R84, R87, R175;
R54, R55). The frame is left in its reply part (log 4). -/
def Obligations.PushPriorityFillsTheSlotAndMayCancel : Prop :=
  ∀ (length : Byte) (bytes : List Byte) (r : CommandRecord) (s : State), s.frame ≠ .ignored →
    length.toNat ≤ bytes.length → parseRecord (bytes.take length.toNat) = some r →
    (s.prioritySlot ≠ none →
      exec (.pushPriority length bytes) s = .next { s with frame := .replying, reply := [0xA2] }) ∧
    (∀ op, s.prioritySlot = none → r.preempt = true → s.engine = .scan op →
      s.level .prioritySlot < s.level op.source → exec (.pushPriority length bytes) s =
        .next { s with
          frame := .replying, prioritySlot := some r, backup := some op.request, reserved := s.reserved - 1,
          engine := .idle, reply := [0xA0] }) ∧
    (s.prioritySlot = none →
      (r.preempt = false ∨ ∀ op, s.engine = .scan op → s.level op.source ≤ s.level .prioritySlot) →
      exec (.pushPriority length bytes) s =
        .next { s with frame := .replying, prioritySlot := some r, reply := [0xA0] })

/-- WITHDRAW_PRIORITY empties the slot and answers WITHDREW_SLOT with the tag and code of its command, or answers NOTHING.
FLUSH_QUEUE discards the Command Queue and its back-up entry and answers ACCEPTED, and QUEUE_LOW then holds (R82, R86, R176,
R177). That each brings its frame whole from its falling edge, and leaves it in its reply part, is log 4; nothing else
changes. -/
def Obligations.WithdrawAndFlushEmptyTheirSources : Prop :=
  ∀ s : State, s.frame ≠ .ignored →
    (∀ r, s.prioritySlot = some r → exec .withdrawPriority s = .next { s with
      frame := .replying, prioritySlot := none, reply := [0xA5, r.tag, r.command.code] }) ∧
    (s.prioritySlot = none → exec .withdrawPriority s =
      .next { s with frame := .replying, reply := [0xA3, 0, 0] }) ∧
    ∃ t, exec .flushQueue s = .next t ∧
      t = { s with frame := .replying, commandQueue := [], backup := none, reply := [0xA0] } ∧
      t.queueLow = true

/-- POP_RESPONSE removes the oldest filled record and sends it behind its length byte, and the free count rises by one;
with none filled it answers EMPTY and changes nothing else. The reservation stands in both cases (R58, R178). The frame is
left in its reply part (log 4). -/
def Obligations.PopResponseTakesTheOldest : Prop :=
  ∀ s : State, s.frame ≠ .ignored →
    (∀ r rest, s.responses = r :: rest → ∃ t, exec .popResponse s = .next t ∧
      t = { s with
        frame := .replying, responses := rest, draws := s.draws + 1,
        reply := BitVec.ofNat 8 (r.bytes s.draws).length :: r.bytes s.draws } ∧
      (s.responses.length + s.reserved ≤ 32 → t.responseFree = s.responseFree + 1)) ∧
    (s.responses = [] → exec .popResponse s = .next { s with frame := .replying, reply := [0] })

/-- READ_STATUS changes nothing but its frame (log 4) and the reply, which has 17 bytes: engine state, level, flags,
counts, the six links' states and attention flags, the frame-store flag, the mark, the mask and the conditions (R179,
R187). The bits the layout does not list are free values (log 5), but for bits 4 to 7 of the mask, which read back as
they were written: the model's choice (log 7). -/
def Obligations.ReadStatusReportsOneView : Prop :=
  ∀ s : State, s.frame ≠ .ignored → ∃ bs,
    exec .readStatus s = .next { s with frame := .replying, draws := s.draws + 1, reply := bs } ∧
    bs.length = 17 ∧
    byteAt bs 0 = s.engine.byte ∧ byteAt bs 1 = BitVec.ofNat 8 s.commandQueue.length ∧
    flagAt bs 2 0 = s.backup.isSome ∧ flagAt bs 2 1 = s.gateOpen ∧ flagAt bs 2 2 = s.prioritySlot.isSome ∧
    byteAt bs 3 = BitVec.ofNat 8 s.responses.length ∧ byteAt bs 4 = BitVec.ofNat 8 s.reserved ∧
    byteAt bs 5 = BitVec.ofNat 8 s.tableFree ∧ byteAt bs 6 = BitVec.ofNat 8 s.poolFree ∧
    (∀ l : LinkNo, byteAt bs (7 + l.val) &&& 3 = (look s.links l).state.byte ∧
      flagAt bs (7 + l.val) 7 = (look s.links l).attention) ∧
    flagAt bs 13 0 = s.fsAttention ∧ byteAt bs 14 = BitVec.ofNat 8 s.refillMark.val ∧ byteAt bs 15 = s.irqMask ∧
    flagAt bs 16 0 = s.responseWaiting ∧ flagAt bs 16 1 = s.queueLow ∧ flagAt bs 16 2 = s.linkAttention ∧
    flagAt bs 16 3 = s.framestoreAttention

/-- READ_LINK of link 0 to 5 sends its state, configuration and attention flag as it stood, and clears that flag;
READ_FRAMESTORE sends its attention flag as it stood, both counters, the number of bursts and the timeout in force, and
clears its flag; the counters and everything else are left (R135, R156, R180, R181, R187). The unlisted bits of the flag
byte are free (log 5), and the frame is left in its reply part (log 4). -/
def Obligations.ReadingAnAttentionFlagClearsIt : Prop :=
  (∀ (b : Byte) (l : LinkNo) (s : State), s.frame ≠ .ignored → l.val = b.toNat → ∃ flags : Byte,
    exec (.readLink b) s = .next { s with
      frame := .replying
      links := put s.links l { look s.links l with attention := false }
      draws := s.draws + 1
      reply := [0xA0, (look s.links l).state.byte, flags, BitVec.ofNat 8 (look s.links l).pixelSize.bytes,
        if (look s.links l).attention then 1 else 0] } ∧
    flags.getLsbD 0 = (look s.links l).enable ∧ flags.getLsbD 1 = (look s.links l).single) ∧
  ∀ s : State, s.frame ≠ .ignored → exec .readFramestore s = .next { s with
    frame := .replying
    fsAttention := false
    reply := [if s.fsAttention then 1 else 0] ++ bytes16 s.fsRefused ++ bytes16 s.fsTimeout ++
      [BitVec.ofNat 8 s.bursts.length, s.ackTimeout] }

/-- SET_PORT_CONTROL with a mark of 0 to 15 writes the mask, the mark and the gate together, and no other state but its
frame's, left in its reply part (log 4); QUEUE_LOW is evaluated against the new mark (R80, R81, R182). That bits 4 to 7
of the mask are held as written is the model's choice (log 7). -/
def Obligations.SetPortControlWritesAllThree : Prop :=
  ∀ (mask mark gate : Byte) (m : Fin 16) (s : State), s.frame ≠ .ignored → m.val = mark.toNat →
    ∃ t, exec (.setPortControl mask mark gate) s = .next t ∧
      t = { s with
        frame := .replying, irqMask := mask, refillMark := m, gateOpen := gate.getLsbD 0, reply := [0xA0] } ∧
      (t.queueLow = true ↔ s.commandQueue.length ≤ mark.toNat)

/-- TABLE_RESET frees every record, with its generation raised if it was LIVE or DRAINING, empties the Key Index, the
pool, the queues, the sets, the contexts and the FIFOs, abandons the operation and flushes the Burst Queue; the planes,
levels, port controls, link states, configurations, counters and flags, the issue number, the timeout, its counters and
the timebase are kept (R26, R31, R43, R66, R90, R138, R158, R169, R183). That abort requests still travelling are discarded
is the model's choice (log 8); R26 says only that such a request has no effect. The frame is left in its reply part
(log 4). -/
def Obligations.TableResetClearsTheTableSide : Prop :=
  ∀ s : State, s.frame ≠ .ignored → ∃ t, exec .tableReset s = .next t ∧
    (∀ i, t.placement? i = none ∧ (look t.records i).generation =
      if s.placement? i = none then (look s.records i).generation else (look s.records i).generation + 1) ∧
    (∀ l, look t.links l =
      { look s.links l with contexts := Vector.replicate 16 none, fifo := [] } ∧ t.roomRequest l = none) ∧
    t.tableFree = 64 ∧ t.poolFree = 128 ∧ (∀ x, t.offer x = none) ∧ t.queueLow = true ∧ t.outstanding = false ∧
    t = { s with
      frame := .replying, records := t.records, links := t.links, keyIndex := Vector.replicate 96 none,
      pool := Vector.replicate 128 none,
      engine := .idle, responses := [], reserved := 0, aborts := [], commandQueue := [], backup := none,
      prioritySlot := none, releaseSet := Vector.replicate 64 false, commitSet := Vector.replicate 64 false,
      expirySet := Vector.replicate 64 false, bursts := [], timer := none, reply := [0xA0] }

/-- Each interrupt condition holds exactly while its cause holds: RESPONSE_WAITING while the filled count is above 0,
QUEUE_LOW while the level is at or below the refill mark, LINK_ATTENTION while some link's attention flag is set and
FRAMESTORE_ATTENTION while the frame-store attention flag is. IRQN is low exactly while some condition holds whose enable is
set, on bits 0 to 3 of the mask. READ_STATUS leaves IRQN as it is and, where it is taken, reports every condition, enabled
or not (R184, R187). -/
def Obligations.IrqnFollowsTheEnabledConditions : Prop :=
  ∀ s : State,
    (s.responseWaiting = true ↔ 0 < s.responses.length) ∧
    (s.queueLow = true ↔ s.commandQueue.length ≤ s.refillMark.val) ∧
    (s.linkAttention = true ↔ ∃ l, (look s.links l).attention = true) ∧
    (s.framestoreAttention = true ↔ s.fsAttention = true) ∧
    (s.irqnLow = true ↔
      (s.irqMask.getLsbD 0 = true ∧ 0 < s.responses.length) ∨
      (s.irqMask.getLsbD 1 = true ∧ s.commandQueue.length ≤ s.refillMark.val) ∨
      (s.irqMask.getLsbD 2 = true ∧ ∃ l, (look s.links l).attention = true) ∨
      (s.irqMask.getLsbD 3 = true ∧ s.fsAttention = true)) ∧
    ∃ t, exec .readStatus s = .next t ∧ t.irqnLow = s.irqnLow ∧ (s.frame ≠ .ignored →
      flagAt t.reply 16 0 = s.responseWaiting ∧ flagAt t.reply 16 1 = s.queueLow ∧
      flagAt t.reply 16 2 = s.linkAttention ∧ flagAt t.reply 16 3 = s.framestoreAttention)

/-- The formats of chapter 10. A frame's first byte and the bytes behind it spell its command: each of the ten codes its
transaction with its operands, a frame that ends within its request part INCOMPLETE_FRAME, any other code MALFORMED; bytes
behind the request part are not examined (R170, R172, R173, R187). Command records are read at the offsets of the layout,
most significant byte first (R188). Response records are laid out as R189 gives: a result with its tag, code, status,
handle and payload, the detail of each status, the payload of each command's OK, the QUERY snapshot, and a notice with its
name, handle, flags, cause and label. The bits of flag bytes that no table lists are free (log 5); that the hold and
cleared flags are sent as 01h or 00h is the model's choice (log 18). -/
def Obligations.RecordsFollowTheFormats : Prop :=
  (∀ rest : List Byte,
    (∀ (n : Byte) (record : List Byte), record.length = n.toNat →
      frameCommand ([0x10, n] ++ record ++ rest) = .pushCommand n record ∧
        frameCommand ([0x11, n] ++ record ++ rest) = .pushPriority n record) ∧
    frameCommand (0x12 :: rest) = .withdrawPriority ∧ frameCommand (0x13 :: rest) = .flushQueue ∧
    frameCommand (0x20 :: rest) = .popResponse ∧ frameCommand (0x21 :: rest) = .readStatus ∧
    (∀ l, frameCommand ([0x22, l] ++ rest) = .readLink l) ∧ frameCommand (0x23 :: rest) = .readFramestore ∧
    (∀ mask mark gate, frameCommand ([0x30, mask, mark, gate] ++ rest) = .setPortControl mask mark gate) ∧
    frameCommand (0x3F :: rest) = .tableReset ∧
    (∀ code : Byte, code ∉ [0x10, 0x11, 0x12, 0x13, 0x20, 0x21, 0x22, 0x23, 0x30, 0x3F] →
      frameCommand (code :: rest) = .malformed code)) ∧
  (∀ bs : List Byte, bs = [] ∨ bs = [0x10] ∨ bs = [0x11] ∨ bs = [0x22] ∨
      (∃ (code n : Byte) (record : List Byte), (code = 0x10 ∨ code = 0x11) ∧ record.length < n.toNat ∧
        bs = [code, n] ++ record) ∨
      (∃ parameters : List Byte, parameters.length < 3 ∧ bs = 0x30 :: parameters) →
    frameCommand bs = .incompleteFrame (.ended bs)) ∧
  (∀ (bs : List Byte) (r : CommandRecord), parseRecord bs = some r →
    let w (n : Nat) : U16 := byteAt bs n ++ byteAt bs (n + 1)
    let f (n b : Nat) : Bool := (byteAt bs n).getLsbD b
    let h : Handle := { index := byteAt bs 3, generation := byteAt bs 4 }
    let d (n : Nat) : DestDesc :=
      { plane := byteAt bs n, x := w (n + 1), y := w (n + 3), width := w (n + 5), height := w (n + 7),
        cropX := w (n + 9), cropY := w (n + 11) }
    (byteAt bs 0 = 0x01 → bs.length = 67 ∧ r.command = .create
      { link := byteAt bs 3, channel := byteAt bs 4, labelPresent := f 5 0, retireOnSilence := f 5 1, hold := f 5 2,
        label := w 6, width := w 8, height := w 10, interval := w 12, count := byteAt bs 14,
        dests := #v[d 15, d 28, d 41, d 54] }) ∧
    (byteAt bs 0 = 0x02 → bs.length = 62 ∧ r.command = .amend
      { handle := h, width := w 5, height := w 7, count := byteAt bs 9, dests := #v[d 10, d 23, d 36, d 49] }) ∧
    (byteAt bs 0 = 0x03 → bs.length = 10 ∧ r.command = .setAttributes
      { handle := h, hold := f 5 0, retireOnSilence := f 5 1, labelPresent := f 5 2, interval := w 6, label := w 8 }) ∧
    (byteAt bs 0 = 0x04 → bs.length = 6 ∧ r.command = .retire h (f 5 0)) ∧
    (byteAt bs 0 = 0x05 → bs.length = 5 ∧ r.command = .lookup (byteAt bs 3) (byteAt bs 4)) ∧
    (byteAt bs 0 = 0x06 → bs.length = 4 ∧ r.command = .query (byteAt bs 3)) ∧
    (byteAt bs 0 = 0x07 → bs.length = 17 ∧ r.command = .definePlane
      { plane := byteAt bs 3, base := w 4 ++ w 6, pitch := w 8 ++ w 10, width := w 12, height := w 14,
        pixelSize := byteAt bs 16 }) ∧
    (byteAt bs 0 = 0x08 → bs.length = 7 ∧ r.command = .configureLink
      { link := byteAt bs 3, enable := f 4 0, mode := byteAt bs 5, pixelSize := byteAt bs 6 }) ∧
    (byteAt bs 0 = 0x09 → bs.length = 4 ∧ r.command = .configureFramestore (byteAt bs 3)) ∧
    (byteAt bs 0 = 0x0A → bs.length = 8 ∧
      r.command = .setLevels #v[byteAt bs 3, byteAt bs 4, byteAt bs 5, byteAt bs 6, byteAt bs 7]) ∧
    (byteAt bs 0 = 0x0B → bs.length = 7 ∧ r.command = .readCounters
      { kind := byteAt bs 3, target0 := byteAt bs 4, target1 := byteAt bs 5, clear := f 6 0 }) ∧
    (byteAt bs 0 = 0x0C → bs.length = 3 ∧ r.command = .sync)) ∧
  (∀ (n : Nat) (tag code : Byte) (st : Status) (h : Handle) (p : Payload),
    (Response.result tag code st (some h) p).bytes n =
      [0x01, tag, code, st.byte, 0x01, h.index, h.generation] ++ p.bytes n ∧
    (Response.result tag code st none p).bytes n = [0x01, tag, code, st.byte, 0x00] ++ p.bytes n) ∧
  ([Status.ok, .badGeometry, .badKey, .badParameter, .duplicateKey, .tableFull, .planeUndefined, .pixelMismatch,
      .outsidePlane, .poolShort, .overlap, .staleHandle, .notLive, .amendPending, .noSuchKey, .planeInUse, .planeClash,
      .linkInUse].map Status.byte =
    [0x00, 0x01, 0x02, 0x03, 0x04, 0x05, 0x06, 0x07, 0x08, 0x09, 0x0A, 0x0B, 0x0C, 0x0D, 0x0E, 0x0F, 0x10, 0x11]) ∧
  (∀ n : Nat,
    let one (m : Nat) : Byte := BitVec.ofNat 8 m
    let two (v : U16) : List Byte := [v.extractLsb' 8 8, v.extractLsb' 0 8]
    let four (v : U32) : List Byte := two (v.extractLsb' 16 16) ++ two (v.extractLsb' 0 16)
    let flag (b : Bool) : Byte := if b then 1 else 0
    let key (k : Key) : List Byte := [one k.link.val, one k.channel.val]
    let list (es : List EntryNo) : List Byte := one es.length :: es.map fun e => one e.val
    let counters (c : RecordCounters) : List Byte := four c.placed ++ four c.held ++ four c.refused ++ four c.damaged
    Payload.empty.bytes n = [] ∧
    (∀ m, (Payload.position m).bytes n = [one m]) ∧
    (∀ i, (Payload.record i).bytes n = [one i.val]) ∧
    (∀ m, (Payload.sourceNumber m).bytes n = [one m.val]) ∧
    (∀ free needed, (Payload.shortage free needed).bytes n = [one free, one needed]) ∧
    (∀ i a b, (Payload.mutualOverlap i a b).bytes n = [one i.val, 0, one a, one b]) ∧
    (∀ i e, (Payload.poolOverlap i e).bytes n = [one i.val, 1, one e.val]) ∧
    (Payload.slotPhase .staged).bytes n = [2] ∧ (Payload.slotPhase .superseded).bytes n = [3] ∧
    (∀ e i, (Payload.entryOwner e i).bytes n = [one e.val, one i.val]) ∧
    (∀ q, (Payload.plane q).bytes n = [one q.val]) ∧
    (∀ es, (Payload.created es).bytes n = list es) ∧
    (∀ b es, (Payload.amended .a b es).bytes n = [0, flag b] ++ list es ∧
      (Payload.amended .b b es).bytes n = [1, flag b] ++ list es) ∧
    (∀ claim sent, ∃ b : Byte, b.getLsbD 0 = claim.isSome ∧ b.getLsbD 1 = sent ∧
      (Payload.retired claim sent).bytes n = b :: ((claim.map key).getD [])) ∧
    (∀ hold, (Payload.found .fresh hold).bytes n = [0, flag hold] ∧
      (Payload.found .flowing hold).bytes n = [1, flag hold] ∧ (Payload.found .silent hold).bytes n = [2, flag hold]) ∧
    (∀ q b, (Payload.planeDefined q b).bytes n = [q, flag b]) ∧
    (∀ l enable single z st, ∃ b : Byte, b.getLsbD 0 = enable ∧
      (Payload.linkConfigured l enable single z st).bytes n =
        [one l.val, b, flag single, if z = .two then 2 else 4,
          match st with
          | .disabled => 0
          | .seeking => 1
          | .locked => 2]) ∧
    (∀ m, (Payload.timeout m).bytes n = [m]) ∧
    (∀ a b c d e : Fin 8, (Payload.levels #v[a, b, c, d, e]).bytes n =
      [one a.val, one b.val, one c.val, one d.val, one e.val]) ∧
    (∀ cleared c, (Payload.recordCounters cleared c).bytes n = [0, flag cleared] ++ counters c) ∧
    (∀ cleared c, (Payload.linkCounters cleared c).bytes n = [1, flag cleared] ++
      two (look c 0) ++ two (look c 1) ++ two (look c 2) ++ two (look c 3) ++ two (look c 4) ++ two (look c 5) ++
        two (look c 6) ++ two (look c 7)) ∧
    (∀ cleared a b, (Payload.portCounters cleared a b).bytes n = [2, flag cleared] ++ two a ++ two b) ∧
    (∀ i r as bs, r.placement = none → (Payload.snapshot i r as bs).bytes n = [one i.val, 0, r.generation]) ∧
    ∀ i r p as bs, r.placement = some p →
      let entry (e : EntryNo × Entry) : List Byte :=
        [one e.1.val, one e.2.plane.val] ++ two e.2.x ++ two e.2.y ++ two e.2.width ++ two e.2.height ++
          two e.2.cropX ++ two e.2.cropY
      let slot (letter : Byte) (es : List (EntryNo × Entry)) : Option Slot → List Byte
        | none => []
        | some g =>
          [letter, match g.phase with
            | .active => 1
            | .staged => 2
            | .superseded => 3] ++ two g.width ++ two g.height ++ [one es.length] ++ es.flatMap entry
      ∃ b : Byte, b.getLsbD 0 = p.label.isSome ∧ b.getLsbD 1 = p.claim.isSome ∧
        (Payload.snapshot i r as bs).bytes n =
          [one i.val, if p.drain = none then 1 else 2, r.generation] ++ key p.key ++ [b] ++
          ((p.label.map two).getD []) ++
          (match p.drain with
            | none => []
            | some .retire => [0]
            | some .silence => [1]) ++
          ((p.claim.map key).getD [0, 0]) ++
          [match p.activity with
            | .fresh => 0
            | .flowing => 1
            | .silent => 2] ++ two p.age ++ counters p.counters ++
          [match p.slotA, p.slotB with
            | some _, some _ => 2
            | some _, none | none, some _ => 1
            | none, none => 0] ++ slot 0 as p.slotA ++ slot 1 bs p.slotB) ∧
  ∀ (n : Nat) (h : Handle) (label : Option U16) (retiring : Bool),
    let flags (b : Byte) (set : Bool) : Prop := b.getLsbD 0 = label.isSome ∧ b.getLsbD 1 = set
    let tail : List Byte := match label with
      | some v => [v.extractLsb' 8 8, v.extractLsb' 0 8]
      | none => []
    (∃ b, flags b false ∧ (Response.freed h .retire label).bytes n =
      [0x02, 0x01, h.index, h.generation, b, 0x00] ++ tail) ∧
    (∃ b, flags b false ∧ (Response.freed h .silence label).bytes n =
      [0x02, 0x01, h.index, h.generation, b, 0x01] ++ tail) ∧
    (∃ b, flags b false ∧ (Response.amendApplied h label).bytes n =
      [0x02, 0x02, h.index, h.generation, b] ++ tail) ∧
    ∃ b, flags b retiring ∧ (Response.silent h retiring label).bytes n =
      [0x02, 0x03, h.index, h.generation, b] ++ tail

/-! ## Arbitration and starts (03, 04) -/

/-- When the engine is IDLE, a source offers and the Response Queue has a free entry, exactly one source and request are
started. A start command of another request changes nothing, and neither does any start command while no source offers,
the engine is not IDLE or the Response Queue has no free entry: no start of it is taken and the offers wait unchanged
(R69, R70, R71; that such a command is no event of the part is the model's choice, log 1). -/
def Obligations.TheArbiterChoosesExactlyOne : Prop :=
  (∀ s : State, s.engine = .idle → s.responses.length + s.reserved < 32 → (∃ x q, s.offer x = some q) →
    ∃ x q, s.Starts x q ∧ ∀ y r, s.Starts y r → y = x ∧ r = q) ∧
  ∀ c ∈ startCommands, ∀ s : State,
    (s.engine ≠ .idle ∨ 32 ≤ s.responses.length + s.reserved → exec c s = .next s) ∧
    ((∀ x, s.offer x = none) → exec c s = .next s) ∧
    ∀ x q, s.Starts x q → x.startedBy q ≠ some c → exec c s = .next s

/-- What each source offers: the slot's command, the lowest record whose bit is set, and the back-up or, with the gate
open, the head of the queue; and at a start the request leaves its source, one entry is reserved, and nothing else changes
(R46, R67, R73, R77, R79, R80). -/
def Obligations.SourcesOfferAndGiveUpRequests : Prop :=
  ∀ s : State,
    s.offer .prioritySlot = s.prioritySlot.map Request.command ∧
    (∀ i, s.offer .releaseSet = some (.internal i) ↔
      look s.releaseSet i = true ∧ ∀ j, j < i → look s.releaseSet j = false) ∧
    (∀ i, s.offer .commitSet = some (.internal i) ↔
      look s.commitSet i = true ∧ ∀ j, j < i → look s.commitSet j = false) ∧
    (∀ i, s.offer .expirySet = some (.internal i) ↔
      look s.expirySet i = true ∧ ∀ j, j < i → look s.expirySet j = false) ∧
    (∀ r, s.backup = some r → s.offer .commandQueue = some (.command r)) ∧
    (s.backup = none → s.gateOpen = false → s.offer .commandQueue = none) ∧
    (s.backup = none → s.gateOpen = true → s.offer .commandQueue = s.commandQueue.head?.map Request.command) ∧
    (∀ r, s.begun .prioritySlot (.command r) = { s with prioritySlot := none, reserved := s.reserved + 1 }) ∧
    (∀ i, s.begun .releaseSet (.internal i) =
      { s with releaseSet := put s.releaseSet i false, reserved := s.reserved + 1 }) ∧
    (∀ i, s.begun .commitSet (.internal i) =
      { s with commitSet := put s.commitSet i false, reserved := s.reserved + 1 }) ∧
    (∀ i, s.begun .expirySet (.internal i) =
      { s with expirySet := put s.expirySet i false, reserved := s.reserved + 1 }) ∧
    (∀ r, s.backup ≠ none → s.begun .commandQueue (.command r) =
      { s with backup := none, reserved := s.reserved + 1 }) ∧
    (∀ r, s.backup = none → s.begun .commandQueue (.command r) =
      { s with commandQueue := s.commandQueue.tail, reserved := s.reserved + 1 })

/-- AMEND, SET_ATTRIBUTES, RETIRE and READ_COUNTERS of a record refuse a stale handle with STALE_HANDLE, and all but
READ_COUNTERS refuse a DRAINING record's with NOT_LIVE, with no other effect and the handle as given (R9, R92). -/
def Obligations.HandlesAreCheckedFirst : Prop :=
  ∀ (s : State) (x : Source) (r : CommandRecord) (h : Handle), s.Starts x (.command r) →
    (∀ c : Instr,
      ((∃ p : AmendParams, r.command = .amend p ∧ p.handle = h ∧ c = .amend) ∨
        (∃ p : AttributeParams, r.command = .setAttributes p ∧ p.handle = h ∧ c = .setAttributes) ∨
        ∃ abort, r.command = .retire h abort ∧ c = .retire) →
      (s.Stale h → exec c s = .next (s.answered x r .staleHandle (some h) .empty)) ∧
      (∀ i p, s.Names h i p → p.drain ≠ none → exec c s = .next (s.answered x r .notLive (some h) .empty))) ∧
    (∀ p : CounterParams, r.command = .readCounters p → p.kind = 0 → p.handle = h → s.Stale h →
      exec .readCounters s = .next (s.answered x r .staleHandle (some h) .empty))

/-! ## CREATE, AMEND and DEFINE-PLANE: starts (02, 05) -/

/-- The checks on a new slot. Geometry: no fault exactly when the source size is 1 to 4096, the count 1 to 4, and every used
destination has its size 1 to 4096, its origin at most 8191 and its crop inside the source; a source size or count fault is
position 0, and otherwise the position is that of the first destination at fault. Planes and pool: no fault exactly when
every destination names a defined plane of the link's pixel size and lies inside it and the pool has an entry for each;
the four fail in that order, each over the whole list (R36, R37, R38, R94). -/
def Obligations.SlotChecksRunInOrder : Prop :=
  (∀ (w h : U16) (n : Byte) (ds : List DestDesc),
    let fits (m : U16) : Prop := 1 ≤ m.toNat ∧ m.toNat ≤ 4096
    let good (d : DestDesc) : Prop :=
      fits d.width ∧ fits d.height ∧ d.x.toNat ≤ 8191 ∧ d.y.toNat ≤ 8191 ∧
        d.cropX.toNat + d.width.toNat ≤ w.toNat ∧ d.cropY.toNat + d.height.toNat ≤ h.toNat
    let top : Prop := fits w ∧ fits h ∧ 1 ≤ n.toNat ∧ n.toNat ≤ 4
    (geometryFault w h n ds = none ↔ top ∧ ∀ d ∈ ds, good d) ∧
    (geometryFault w h n ds = some 0 ↔ ¬ top) ∧
    ∀ k : Nat, geometryFault w h n ds = some (k + 1) ↔
      top ∧ (∃ d, ds[k]? = some d ∧ ¬ good d) ∧ ∀ j d, j < k → ds[j]? = some d → good d) ∧
  ∀ (s : State) (l : LinkNo) (ds : List DestDesc),
    let defined (d : DestDesc) : Prop := ∃ p, s.plane? d.plane = some p
    let fits (d : DestDesc) : Prop := ∀ p, s.plane? d.plane = some p → p.pixelSize = (look s.links l).pixelSize
    let inside (d : DestDesc) : Prop := ∀ p, s.plane? d.plane = some p →
      d.x.toNat + d.width.toNat ≤ p.width.toNat ∧ d.y.toNat + d.height.toNat ≤ p.height.toNat
    (s.slotDenial l ds = none ↔
      (∀ d ∈ ds, defined d) ∧ (∀ d ∈ ds, fits d) ∧ (∀ d ∈ ds, inside d) ∧ ds.length ≤ s.poolFree) ∧
    (∀ n, s.slotDenial l ds = some (.planeUndefined, .position (n + 1)) ↔
      (∃ d, ds[n]? = some d ∧ ¬ defined d) ∧ ∀ j d, j < n → ds[j]? = some d → defined d) ∧
    (∀ n, s.slotDenial l ds = some (.pixelMismatch, .position (n + 1)) ↔
      (∀ d ∈ ds, defined d) ∧ (∃ d, ds[n]? = some d ∧ ¬ fits d) ∧ ∀ j d, j < n → ds[j]? = some d → fits d) ∧
    (∀ n, s.slotDenial l ds = some (.outsidePlane, .position (n + 1)) ↔
      (∀ d ∈ ds, defined d) ∧ (∀ d ∈ ds, fits d) ∧ (∃ d, ds[n]? = some d ∧ ¬ inside d) ∧
        ∀ j d, j < n → ds[j]? = some d → inside d) ∧
    (s.slotDenial l ds = some (.poolShort, .shortage s.poolFree ds.length) ↔
      (∀ d ∈ ds, defined d) ∧ (∀ d ∈ ds, fits d) ∧ (∀ d ∈ ds, inside d) ∧ s.poolFree < ds.length)

/-- CREATE refuses with the first of BAD_GEOMETRY, BAD_KEY, DUPLICATE_KEY, TABLE_FULL and the slot checks that fails,
and otherwise enters SCAN at its mutual comparison with its reservation held (R46, R94). -/
def Obligations.CreateStartsOrIsRefused : Prop :=
  ∀ (s : State) (x : Source) (r : CommandRecord) (p : CreateParams), s.Starts x (.command r) → r.command = .create p →
    (∀ n, geometryFault p.width p.height p.count p.used = some n →
      exec .create s = .next (s.answered x r .badGeometry none (.position n))) ∧
    (geometryFault p.width p.height p.count p.used = none →
      ((5 < p.link.toNat ∨ 15 < p.channel.toNat) →
        exec .create s = .next (s.answered x r .badKey none .empty)) ∧
      ∀ k : Key, k.link.val = p.link.toNat → k.channel.val = p.channel.toNat →
        (((look s.links k.link).single = true ∧ k.channel ≠ 0) →
          exec .create s = .next (s.answered x r .badKey none .empty)) ∧
        (((look s.links k.link).single = true → k.channel = 0) →
          (∀ i, look s.keyIndex k.place = some i →
            exec .create s = .next (s.answered x r .duplicateKey none (.record i))) ∧
          (look s.keyIndex k.place = none →
            (s.tableFree = 0 → exec .create s = .next (s.answered x r .tableFull none .empty)) ∧
            (s.tableFree ≠ 0 →
              (∀ d, s.slotDenial k.link p.used = some d →
                exec .create s = .next (s.answered x r d.1 none d.2)) ∧
              (s.slotDenial k.link p.used = none → exec .create s =
                .next { s.begun x (.command r) with
                  engine := .scan { source := x, request := r, position := .mutualComparison } })))))

/-- AMEND of a LIVE record refuses with AMEND_PENDING and the state of the slot that is STAGED or SUPERSEDED, then with
BAD_GEOMETRY and the slot checks on the link of the record's key, and otherwise enters SCAN (R11, R97; the handle checks
are stated apart). -/
def Obligations.AmendStartsOrIsRefused : Prop :=
  ∀ (s : State) (x : Source) (r : CommandRecord) (p : AmendParams) (i : RecordNo) (b : Placement),
    s.Starts x (.command r) → r.command = .amend p → s.Names p.handle i b → b.drain = none →
    (b.slotsIn .staged ≠ [] → exec .amend s =
      .next (s.answered x r .amendPending (some p.handle) (.slotPhase .staged))) ∧
    (b.slotsIn .staged = [] → b.slotsIn .superseded ≠ [] → exec .amend s =
      .next (s.answered x r .amendPending (some p.handle) (.slotPhase .superseded))) ∧
    (b.slotsIn .staged = [] → b.slotsIn .superseded = [] →
      (∀ n, geometryFault p.width p.height p.count p.used = some n →
        exec .amend s = .next (s.answered x r .badGeometry (some p.handle) (.position n))) ∧
      (geometryFault p.width p.height p.count p.used = none →
        (∀ d, s.slotDenial b.key.link p.used = some d →
          exec .amend s = .next (s.answered x r d.1 (some p.handle) d.2)) ∧
        (s.slotDenial b.key.link p.used = none → exec .amend s =
          .next { s.begun x (.command r) with
            engine := .scan { source := x, request := r, position := .mutualComparison } })))

/-- DEFINE_PLANE with a plane number of 0 to 3 enters SCAN when its width is 0, or when width, height, base, pitch and
pixel size are as R28 asks and the memory range ends at or below FFFFFFFFh; every other request is refused with
BAD_PARAMETER. The scan begins at the first OCCUPIED entry, or at the range comparison when the pool holds none (R28,
R46, R49). -/
def Obligations.DefinePlaneStartsOrIsRefused : Prop :=
  ∀ (s : State) (x : Source) (r : CommandRecord) (p : PlaneParams), s.Starts x (.command r) →
    r.command = .definePlane p →
    let good : Prop := p.plane.toNat ≤ 3 ∧ (p.width = 0 ∨
      (p.width.toNat ≤ 8192 ∧ 1 ≤ p.height.toNat ∧ p.height.toNat ≤ 8192 ∧ p.base.toNat % 256 = 0 ∧
        64 ≤ p.pitch.toNat ∧ p.pitch.toNat ≤ 65536 ∧ p.pitch.toNat % 64 = 0 ∧
        (p.pixelSize = 2 ∨ p.pixelSize = 4) ∧ p.width.toNat * p.pixelSize.toNat ≤ p.pitch.toNat ∧
        p.base.toNat + p.pitch.toNat * p.height.toNat - 1 ≤ 0xFFFFFFFF))
    (¬ good → exec .definePlane s = .next (s.answered x r .badParameter none .empty)) ∧
    (good → ∃ q, exec .definePlane s =
        .next { s.begun x (.command r) with engine := .scan { source := x, request := r, position := q } } ∧
      ((∀ e, look s.pool e = none) → q = .planeRanges) ∧
      ∀ e, look s.pool e ≠ none → (∀ f, f < e → look s.pool f = none) → q = .visit e)

/-! ## Scans and their completions (02, 03, 05) -/

/-- SCAN_STEP takes one step: it goes on to the next position, or ends the scan with the conflict's result, or ends it
with the completion; and the completion commands are that same event where the next step ends the scan of their kind
(R49, R53; logs 2, 6). -/
def Obligations.AScanGoesStepByStep : Prop :=
  ∀ (s : State) (op : ScanOperation), s.engine = .scan op →
    (∀ q, s.scanVerdict op = .goOn q → exec .scanStep s =
      .next { s with engine := .scan { op with position := q } }) ∧
    (∀ st d, s.scanVerdict op = .conflict st d → exec .scanStep s =
      .next { s.concluded (.result op.request.tag op.request.command.code st op.request.command.namedHandle d) with
        draws := s.draws + 1 }) ∧
    ((∀ q, s.scanVerdict op ≠ .goOn q) →
      (op.request.command.isCreate = true → exec .createCompletion s = exec .scanStep s) ∧
      (op.request.command.isAmend = true → exec .amendCompletion s = exec .scanStep s) ∧
      (op.request.command.isDefinePlane = true → exec .definePlaneCompletion s = exec .scanStep s))

/-- The overlap scan of the CREATE or AMEND in flight: the mutual comparison ends with OVERLAP exactly when two new
destinations on one plane share a pixel, and names such a pair and, for a CREATE, the lowest FREE record, for an AMEND the
amended one; a visit ends with OVERLAP exactly when an entry that is not the amended record's shares a pixel with a new
destination, and names its owner and the entry; otherwise the scan goes on to the next OCCUPIED entry above, or is clear
when there is none (R39, R40, R49, R95, R97). Which of several pairs is named is free (log 6), and that its positions stand
in ascending order is the model's choice (log 18). -/
def Obligations.OverlapScansCompareInOrder : Prop :=
  ∀ (s : State) (op : ScanOperation) (own : Option RecordNo) (named : RecordNo) (ds : List DestDesc),
    ((∃ p, op.request.command = .create p ∧ ds = p.dests.toList.take p.count.toNat ∧ own = none ∧
        s.placement? named = none ∧ ∀ j, j < named → s.placement? j ≠ none) ∨
      ∃ p, op.request.command = .amend p ∧ ds = p.dests.toList.take p.count.toNat ∧ own = some named ∧
        named.val = p.handle.index.toNat) →
    let next (v : ScanVerdict) (start : Nat) : Prop :=
      ((∀ f : EntryNo, start ≤ f.val → look s.pool f = none) ∧ v = .clear) ∨
      ∃ f : EntryNo, start ≤ f.val ∧ look s.pool f ≠ none ∧
        (∀ g : EntryNo, start ≤ g.val → g < f → look s.pool g = none) ∧ v = .goOn (.visit f)
    let mutualPairs (a b : Nat) : Prop :=
      ∃ d e, 1 ≤ a ∧ a < b ∧ ds[a - 1]? = some d ∧ ds[b - 1]? = some e ∧ d.rect.shares e.rect = true
    (op.position = .mutualComparison →
      ((∃ a b, mutualPairs a b) →
        ∃ a b, mutualPairs a b ∧ s.scanVerdict op = .conflict .overlap (.mutualOverlap named a b)) ∧
      ((∀ a b, ¬ mutualPairs a b) → next (s.scanVerdict op) 0)) ∧
    ∀ (e : EntryNo) (en : Entry), op.position = .visit e → look s.pool e = some en →
      ((own ≠ some en.owner ∧ ∃ d ∈ ds, d.rect.shares en.rect = true) →
        s.scanVerdict op = .conflict .overlap (.poolOverlap en.owner e)) ∧
      ((own = some en.owner ∨ ∀ d ∈ ds, d.rect.shares en.rect = false) → next (s.scanVerdict op) (e.val + 1))

/-- The plane scan of the DEFINE_PLANE in flight: a visit ends with PLANE_IN_USE, naming the entry and its owner, exactly
when the entry lies on the plane; the range comparison ends with PLANE_CLASH, naming the lowest other defined plane whose
range shares a byte, when a definition has one, and is clear otherwise, as for every undefinition (R29, R49, R107). -/
def Obligations.PlaneScansCompareInOrder : Prop :=
  ∀ (s : State) (op : ScanOperation) (p : PlaneParams), op.request.command = .definePlane p →
    (∀ (e : EntryNo) (en : Entry), op.position = .visit e → look s.pool e = some en →
      (en.plane.val = p.plane.toNat → s.scanVerdict op = .conflict .planeInUse (.entryOwner e en.owner)) ∧
      (en.plane.val ≠ p.plane.toNat → ∃ q, s.scanVerdict op = .goOn q ∧
        ((∀ f, e < f → look s.pool f = none) → q = .planeRanges) ∧
        ∀ f, e < f → look s.pool f ≠ none → (∀ g, e < g → g < f → look s.pool g = none) → q = .visit f)) ∧
    (op.position = .planeRanges →
      (p.width = 0 → s.scanVerdict op = .clear) ∧
      ∀ z, p.width ≠ 0 → PixelSize.ofByte? p.pixelSize = some z →
        let clash (q : PlaneNo) : Prop := q.val ≠ p.plane.toNat ∧ ∃ o, look s.planes q = some o ∧
          p.base.toNat ≤ o.base.toNat + o.pitch.toNat * o.height.toNat - 1 ∧
          o.base.toNat ≤ p.base.toNat + p.pitch.toNat * p.height.toNat - 1
        ((∀ q, ¬ clash q) → s.scanVerdict op = .clear) ∧
        ∀ q, clash q → (∀ q', q' < q → ¬ clash q') → s.scanVerdict op = .conflict .planeClash (.plane q))

/-- An allocation gives each description in list order the next lowest FREE entry, with its owner, slot, plane, origin, size
and crop, and leaves every other entry; the pool free count falls by the number of descriptions. Entries returned to the
pool are FREE and every other entry is as it was (R34, R35). -/
def Obligations.ThePoolGivesTheLowestAndTakesBack : Prop :=
  (∀ (s : State) (i : RecordNo) (x : SlotLetter) (ds : List DestDesc), ds.length ≤ s.poolFree →
    (s.allocated ds).length = ds.length ∧ (s.allocated ds).Pairwise (· < ·) ∧
    (∀ e ∈ s.allocated ds, look s.pool e = none) ∧
    (∀ e ∈ s.allocated ds, ∀ f, f < e → look s.pool f = none → f ∈ s.allocated ds) ∧
    (∀ (n : Nat) (e : EntryNo) (d : DestDesc), (s.allocated ds)[n]? = some e → ds[n]? = some d →
      look (s.allocate i x ds).pool e = some (d.entry i x)) ∧
    (∀ e, e ∉ s.allocated ds → look (s.allocate i x ds).pool e = look s.pool e) ∧
    (s.allocate i x ds).poolFree + ds.length = s.poolFree) ∧
  ∀ (pool : Vector (Option Entry) 128) (es : List EntryNo) (e : EntryNo),
    (e ∈ es → look (emptyPool pool es) e = none) ∧ (e ∉ es → look (emptyPool pool es) e = look pool e)

/-- CREATE_COMPLETION (and the SCAN_STEP it is): a scan that ends clear makes the lowest FREE record LIVE with the
command's key, label, hold, interval and flag, Slot A ACTIVE with the allocated entries, unclaimed, NEW, age 0 and
counters 0, sets the Key Index entry, and posts OK with the handle and the entries (R1, R4, R34, R95). -/
def Obligations.CreateCompletionMakesTheLowestFreeRecordLive : Prop :=
  ∀ (s : State) (op : ScanOperation) (p : CreateParams) (i : RecordNo) (k : Key), s.engine = .scan op →
    op.request.command = .create p → s.scanVerdict op = .clear → s.placement? i = none →
    (∀ j, j < i → s.placement? j ≠ none) → k.link.val = p.link.toNat → k.channel.val = p.channel.toNat →
    let slot : Slot := { phase := .active, width := p.width, height := p.height, entries := s.allocated p.used }
    let made : Placement :=
      { key := k, label := if p.labelPresent then some p.label else none, slotA := some slot, slotB := none,
        hold := p.hold, interval := if p.interval = 0 then none else some p.interval,
        retireOnSilence := p.retireOnSilence, drain := none, claim := none, activity := .fresh, age := 0,
        counters := { placed := 0, held := 0, refused := 0, damaged := 0 } }
    let handle : Handle := { index := BitVec.ofNat 8 i.val, generation := (look s.records i).generation }
    ∃ t, exec .createCompletion s = .next t ∧ exec .scanStep s = .next t ∧
      t = { s.concluded (.result op.request.tag 0x01 .ok (some handle) (.created (s.allocated p.used))) with
        records := put s.records i { look s.records i with placement := some made }
        keyIndex := put s.keyIndex k.place (some i)
        pool := (s.allocate i .a p.used).pool }

/-- AMEND_COMPLETION (and the SCAN_STEP it is): a scan that ends clear writes the EMPTY slot, here `x`, with the
allocated entries. A claimed record keeps it STAGED, flipped clear; on an unclaimed record it is ACTIVE at once, the old
slot SUPERSEDED and the Commit bit set, flipped set (R11, R12, R13, R98). -/
def Obligations.AmendCompletionWritesTheEmptySlot : Prop :=
  ∀ (s : State) (op : ScanOperation) (p : AmendParams) (i : RecordNo) (b : Placement) (x : SlotLetter) (g : Slot),
    s.engine = .scan op → op.request.command = .amend p → s.scanVerdict op = .clear → s.Names p.handle i b →
    b.slot x = none → b.slot x.other = some g → g.phase = .active →
    let fresh (ph : SlotPhase) : Slot :=
      { phase := ph, width := p.width, height := p.height, entries := s.allocated p.used }
    let done (flipped : Bool) : State :=
      s.concluded (.result op.request.tag 0x02 .ok (some p.handle) (.amended x flipped (s.allocated p.used)))
    let flipped : Placement :=
      (b.withSlot x (some (fresh .active))).withSlot x.other (some { g with phase := .superseded })
    ∃ t, exec .amendCompletion s = .next t ∧ exec .scanStep s = .next t ∧
      (b.claim ≠ none → t = { done false with
        records := put s.records i { look s.records i with placement := some (b.withSlot x (some (fresh .staged))) }
        pool := (s.allocate i x p.used).pool }) ∧
      (b.claim = none → t = { done true with
        records := put s.records i { look s.records i with placement := some flipped }
        commitSet := put s.commitSet i true
        pool := (s.allocate i x p.used).pool })

/-- DEFINE_PLANE_COMPLETION (and the SCAN_STEP it is): a scan that ends clear writes the descriptor, or marks the plane
undefined for a width of 0, and posts OK with the plane number and whether it is now defined (R29, R107). -/
def Obligations.DefinePlaneCompletionWritesThePlane : Prop :=
  ∀ (s : State) (op : ScanOperation) (p : PlaneParams) (q : PlaneNo), s.engine = .scan op →
    op.request.command = .definePlane p → s.scanVerdict op = .clear → q.val = p.plane.toNat →
    let done (isDefined : Bool) : State :=
      s.concluded (.result op.request.tag 0x07 .ok none (.planeDefined p.plane isDefined))
    ∃ t, exec .definePlaneCompletion s = .next t ∧ exec .scanStep s = .next t ∧
      (p.width = 0 → t = { done false with planes := put s.planes q none }) ∧
      ∀ z, p.width ≠ 0 → PixelSize.ofByte? p.pixelSize = some z →
        t = { done true with planes := put s.planes q (some
          { base := p.base, pitch := p.pitch, width := p.width, height := p.height, pixelSize := z }) }

/-! ## Host commands with no phase, and SYNC (05) -/

/-- SET_ATTRIBUTES writes all four attributes of a LIVE record and posts OK; an interval that differs from the one held
sets the silence age to 0, and the activity and the Expiry bit are left (R100, R101, R163). -/
def Obligations.SetAttributesWritesAllFour : Prop :=
  ∀ (s : State) (x : Source) (r : CommandRecord) (p : AttributeParams) (i : RecordNo) (b : Placement),
    s.Starts x (.command r) → r.command = .setAttributes p → s.Names p.handle i b → b.drain = none →
    let interval : Option U16 := if p.interval = 0 then none else some p.interval
    exec .setAttributes s = .next { s.answered x r .ok (some p.handle) .empty with
      records := put s.records i { look s.records i with placement := some { b with
        hold := p.hold, interval := interval, retireOnSilence := p.retireOnSilence,
        label := if p.labelPresent then some p.label else none,
        age := if interval = b.interval then b.age else 0 } } }

/-- RETIRE of a LIVE record makes it DRAINING with cause RETIRE and clears its Key Index entry; unclaimed, its Release
bit is set; claimed, an abort request is sent exactly with the abort option; the result tells the claim and whether the
abort was sent (R5, R18, R102). -/
def Obligations.RetireDrainsTheRecord : Prop :=
  ∀ (s : State) (x : Source) (r : CommandRecord) (h : Handle) (abort : Bool) (i : RecordNo) (b : Placement),
    s.Starts x (.command r) → r.command = .retire h abort → s.Names h i b → b.drain = none →
    let drained : State := { s.answered x r .ok (some h) (.retired b.claim (b.claim.isSome && abort)) with
      records := put s.records i { look s.records i with placement := some { b with drain := some .retire } }
      keyIndex := put s.keyIndex b.key.place none }
    (b.claim = none → exec .retire s = .next { drained with releaseSet := put s.releaseSet i true }) ∧
    (∀ c, b.claim = some c → abort = false → exec .retire s = .next drained) ∧
    (∀ c, b.claim = some c → abort = true → exec .retire s =
      .next { drained with aborts := s.aborts ++ [{ record := i, context := c }] })

/-- LOOKUP refuses a link above 5 or a channel above 15 with BAD_KEY, answers the handle, activity and hold flag of the
record in the key's entry, or NO_SUCH_KEY when the entry is empty. QUERY of an index of 0 to 63 answers a snapshot of the
record with its slots' entries in list order; an index above 63 is refused with BAD_PARAMETER. Neither changes a table
(R24, R104, R105). -/
def Obligations.LookupAndQueryReadTheTables : Prop :=
  (∀ (s : State) (x : Source) (r : CommandRecord) (lb cb : Byte), s.Starts x (.command r) →
    r.command = .lookup lb cb →
    ((5 < lb.toNat ∨ 15 < cb.toNat) → exec .lookup s = .next (s.answered x r .badKey none .empty)) ∧
    ∀ k : Key, k.link.val = lb.toNat → k.channel.val = cb.toNat →
      (look s.keyIndex k.place = none → exec .lookup s = .next (s.answered x r .noSuchKey none .empty)) ∧
      ∀ i p, look s.keyIndex k.place = some i → s.placement? i = some p → exec .lookup s =
        .next (s.answered x r .ok
          (some { index := BitVec.ofNat 8 i.val, generation := (look s.records i).generation })
          (.found p.activity p.hold))) ∧
  ∀ (s : State) (x : Source) (r : CommandRecord) (b : Byte), s.Starts x (.command r) → r.command = .query b →
    (63 < b.toNat → exec .query s = .next (s.answered x r .badParameter none .empty)) ∧
    ∀ i : RecordNo, i.val = b.toNat → ∃ as bs,
      exec .query s = .next (s.answered x r .ok none (.snapshot i (look s.records i) as bs)) ∧
      (s.placement? i = none → as = [] ∧ bs = []) ∧
      ∀ p, s.placement? i = some p →
        (p.slotA = none → as = []) ∧ (p.slotB = none → bs = []) ∧
        (∀ g, p.slotA = some g → as = g.entries.filterMap fun e => (look s.pool e).map fun en => (e, en)) ∧
        (∀ g, p.slotB = some g → bs = g.entries.filterMap fun e => (look s.pool e).map fun en => (e, en))

/-- CONFIGURE_LINK refuses a parameter out of range with BAD_PARAMETER, and a change of mode or pixel size while a record
that is not FREE holds the link with LINK_IN_USE naming the lowest such record. A link that is DISABLED, or that stays
enabled with its configuration unchanged, takes the configuration alone, and from DISABLED it enters SEEKING when enabled
(R108, R109, R120). -/
def Obligations.ConfigureLinkChecksAndWrites : Prop :=
  ∀ (s : State) (x : Source) (r : CommandRecord) (p : LinkParams), s.Starts x (.command r) →
    r.command = .configureLink p →
    ((5 < p.link.toNat ∨ 1 < p.mode.toNat ∨ (p.pixelSize ≠ 2 ∧ p.pixelSize ≠ 4)) →
      exec .configureLink s = .next (s.answered x r .badParameter none .empty)) ∧
    ∀ (l : LinkNo) (z : PixelSize), l.val = p.link.toNat → p.mode.toNat ≤ 1 → PixelSize.ofByte? p.pixelSize = some z →
      let k := look s.links l
      let single : Bool := p.mode = 1
      let holds (i : RecordNo) : Prop := ∃ b, s.placement? i = some b ∧ b.key.link = l
      let changed : Prop := k.single ≠ single ∨ k.pixelSize ≠ z
      let done (st : LinkState) : State := s.answered x r .ok none (.linkConfigured l p.enable single z st)
      (∀ i, changed → holds i → (∀ j, j < i → ¬ holds j) →
        exec .configureLink s = .next (s.answered x r .linkInUse none (.record i))) ∧
      ((changed → ∀ i, ¬ holds i) →
        (k.state = .disabled → p.enable = false → exec .configureLink s = .next { done .disabled with
          links := put s.links l { k with enable := false, single := single, pixelSize := z } }) ∧
        (k.state = .disabled → p.enable = true → exec .configureLink s = .next { done .seeking with
          links := put s.links l { k with
            enable := true, single := single, pixelSize := z, state := .seeking, goodRun := 0, errorRun := 0 } }) ∧
        (k.state ≠ .disabled → p.enable = true → ¬ changed → exec .configureLink s = .next { done k.state with
          links := put s.links l { k with enable := true } }))

/-- CONFIGURE_LINK that disables a link in SEEKING or LOCKED, or restarts it with another mode or pixel size: every open
frame of the link is truncated, the FIFO is discarded, both runs are 0, and the link is DISABLED, or SEEKING with the new
configuration; the link's other counters and its attention flag are left; and the grants that the withdrawn request makes
possible are made in the same event (R109, R128, R136, R145). That abort requests travelling to a truncated claim are
discarded is the model's choice (log 9). Premise: the claims agree with the contexts (R16), which every step keeps. -/
def Obligations.ConfigureLinkDisablesOrRestarts : Prop :=
  ∀ (s : State) (x : Source) (r : CommandRecord) (p : LinkParams) (l : LinkNo) (z : PixelSize),
    s.Starts x (.command r) → r.command = .configureLink p → l.val = p.link.toNat → p.mode.toNat ≤ 1 →
    PixelSize.ofByte? p.pixelSize = some z → s.ClaimsAgree → (look s.links l).state ≠ .disabled →
    let single : Bool := p.mode = 1
    let changed : Prop := (look s.links l).single ≠ single ∨ (look s.links l).pixelSize ≠ z
    (changed → ∀ i b, s.placement? i = some b → b.key.link ≠ l) → (p.enable = false ∨ changed) →
    let st : LinkState := if p.enable then .seeking else .disabled
    ∃ t, exec .configureLink s = .next t.grantAll ∧
      t = { s.answered x r .ok none (.linkConfigured l p.enable single z st) with
        records := t.records, links := t.links, releaseSet := t.releaseSet, aborts := t.aborts } ∧
      (s.begun x (.command r)).FramesTruncated t l ∧
      look t.links l = { look s.links l with
        state := st, enable := p.enable, single := single, pixelSize := z, goodRun := 0, errorRun := 0, fifo := [],
        contexts := (look t.links l).contexts, counters := (look t.links l).counters } ∧
      ∀ n, n ≠ LinkCounter.truncated.place →
        look (look t.links l).counters n = look (look s.links l).counters n

/-- CONFIGURE_FRAMESTORE writes a timeout of 1 to 255 and refuses 0 with BAD_PARAMETER; the outstanding burst keeps the
timeout it was issued with. SET_LEVELS writes all five levels when none is above 7, and is refused with BAD_PARAMETER and
the source number of the first level above 7 otherwise, with the levels in force kept (R68, R111, R112). -/
def Obligations.TimeoutAndLevelsAreWrittenWhole : Prop :=
  (∀ (s : State) (x : Source) (r : CommandRecord) (n : Byte), s.Starts x (.command r) →
    r.command = .configureFramestore n →
    (n = 0 → exec .configureFramestore s = .next (s.answered x r .badParameter none .empty)) ∧
    (n ≠ 0 → exec .configureFramestore s = .next { s.answered x r .ok none (.timeout n) with ackTimeout := n })) ∧
  ∀ (s : State) (x : Source) (r : CommandRecord) (ls : Vector Byte 5), s.Starts x (.command r) →
    r.command = .setLevels ls →
    (∀ n : Fin 5, 7 < (look ls n).toNat → (∀ m, m < n → (look ls m).toNat ≤ 7) →
      exec .setLevels s = .next (s.answered x r .badParameter none (.sourceNumber n))) ∧
    ∀ vs : Vector (Fin 8) 5, (∀ n, (look vs n).val = (look ls n).toNat) →
      exec .setLevels s = .next { s.answered x r .ok none (.levels vs) with levels := vs }

/-- READ_COUNTERS reports the counters of a record (LIVE or DRAINING), of a link or of the port and, with the clear
option, sets exactly those to 0; a kind that names none of the three, or a link above 5, is refused with BAD_PARAMETER
(R113, R114, R115). -/
def Obligations.ReadCountersReportsAndClears : Prop :=
  ∀ (s : State) (x : Source) (r : CommandRecord) (p : CounterParams), s.Starts x (.command r) →
    r.command = .readCounters p →
    ((2 < p.kind.toNat ∨ (p.kind = 1 ∧ 5 < p.target0.toNat)) →
      exec .readCounters s = .next (s.answered x r .badParameter none .empty)) ∧
    (∀ i b, p.kind = 0 → s.Names p.handle i b →
      let done : State := s.answered x r .ok (some p.handle) (.recordCounters p.clear b.counters)
      (p.clear = false → exec .readCounters s = .next done) ∧
      (p.clear = true → exec .readCounters s = .next { done with
        records := put s.records i { look s.records i with
          placement := some { b with counters := { placed := 0, held := 0, refused := 0, damaged := 0 } } } })) ∧
    (∀ l : LinkNo, p.kind = 1 → l.val = p.target0.toNat →
      let done : State := s.answered x r .ok none (.linkCounters p.clear (look s.links l).counters)
      (p.clear = false → exec .readCounters s = .next done) ∧
      (p.clear = true → exec .readCounters s = .next { done with
        links := put s.links l { look s.links l with counters := Vector.replicate 8 0 } })) ∧
    (p.kind = 2 →
      let done : State := s.answered x r .ok none (.portCounters p.clear s.fsRefused s.fsTimeout)
      (p.clear = false → exec .readCounters s = .next done) ∧
      (p.clear = true → exec .readCounters s = .next { done with fsRefused := 0, fsTimeout := 0 }))

/-- SYNC fences on every burst in the Burst Queue at its start; with none it completes at once with OK (R52, R116). -/
def Obligations.SyncFencesOnEveryQueuedBurst : Prop :=
  ∀ (s : State) (x : Source) (r : CommandRecord), s.Starts x (.command r) → r.command = .sync →
    (s.bursts = [] → exec .sync s = .next (s.answered x r .ok none .empty)) ∧
    (s.bursts ≠ [] → exec .sync s = .next { s.begun x (.command r) with
      engine := .fence
        { source := x, request := .sync r, awaited := List.replicate s.bursts.length true, target := [] } })

/-! ## Internal operations (03, section 3.5) -/

/-- EXPIRE is dropped with no effect and no notice unless the record is LIVE with an interval and SILENT; then it posts
SILENT, and with retire-on-silence set it also makes the record DRAINING with cause SILENCE, clears its Key Index entry,
and sets its Release bit or, when it is claimed, sends an abort request (R5, R61, R62). -/
def Obligations.ExpireDropsOrPostsSilent : Prop :=
  ∀ (s : State) (i : RecordNo), s.Starts .expirySet (.internal i) →
    let taken : State := { s with expirySet := put s.expirySet i false }
    let notice (p : Placement) : Response :=
      .silent { index := BitVec.ofNat 8 i.val, generation := (look s.records i).generation } p.retireOnSilence p.label
    (s.placement? i = none → exec .expire s = .next taken) ∧
    ∀ p, s.placement? i = some p →
      ((p.drain ≠ none ∨ p.interval = none ∨ p.activity ≠ .silent) → exec .expire s = .next taken) ∧
      (p.drain = none → p.interval ≠ none → p.activity = .silent →
        let posted : State := { taken with responses := s.responses ++ [notice p] }
        let drained : State := { posted with
          records := put s.records i { look s.records i with placement := some { p with drain := some .silence } }
          keyIndex := put s.keyIndex p.key.place none }
        (p.retireOnSilence = false → exec .expire s = .next posted) ∧
        (p.retireOnSilence = true → p.claim = none →
          exec .expire s = .next { drained with releaseSet := put s.releaseSet i true }) ∧
        (∀ c, p.retireOnSilence = true → p.claim = some c →
          exec .expire s = .next { drained with aborts := s.aborts ++ [{ record := i, context := c }] }))

/-- COMMIT fences on the bursts tagged with the record and its SUPERSEDED slot; with none of them queued it completes in its
start event: the slot's entries are FREE, the slot is EMPTY and AMEND_APPLIED is posted. RELEASE fences on the bursts
tagged with the DRAINING record and any slot that is not EMPTY; with none of them queued it completes in its start event:
the entries of both slots are FREE, the record is FREE at the next generation, its Commit and Expiry bits are clear and
FREED is posted with the old handle (R7, R15, R50, R51, R63, R64, R77). -/
def Obligations.CommitAndReleaseFenceOrComplete : Prop :=
  (∀ (s : State) (i : RecordNo) (p : Placement) (x : SlotLetter) (g : Slot), s.Starts .commitSet (.internal i) →
    s.placement? i = some p → p.slotsIn .superseded = [x] → p.slot x = some g →
    let taken : State := { s with commitSet := put s.commitSet i false }
    let mine (b : Burst) : Prop := b.record = i ∧ b.slot = x
    ((∃ b ∈ s.bursts, mine b) → exec .commit s = .next { taken with
      reserved := s.reserved + 1
      engine := .fence
        { source := .commitSet, request := .commit i, awaited := s.bursts.map fun b => decide (mine b),
          target := [x] } }) ∧
    ((∀ b ∈ s.bursts, ¬ mine b) → exec .commit s = .next { taken with
      responses := s.responses ++ [.amendApplied
        { index := BitVec.ofNat 8 i.val, generation := (look s.records i).generation } p.label]
      records := put s.records i { look s.records i with placement := some (p.withSlot x none) }
      pool := emptyPool s.pool g.entries })) ∧
  ∀ (s : State) (i : RecordNo) (p : Placement) (cause : DrainCause), s.Starts .releaseSet (.internal i) →
    s.placement? i = some p → p.drain = some cause →
    let taken : State := { s with releaseSet := put s.releaseSet i false }
    let mine (b : Burst) : Prop := b.record = i ∧ p.slot b.slot ≠ none
    ((∃ b ∈ s.bursts, mine b) → exec .release s = .next { taken with
      reserved := s.reserved + 1
      engine := .fence
        { source := .releaseSet, request := .release i, awaited := s.bursts.map fun b => decide (mine b),
          target := p.occupiedSlots } }) ∧
    ((∀ b ∈ s.bursts, ¬ mine b) → exec .release s = .next { taken with
      responses := s.responses ++ [.freed
        { index := BitVec.ofNat 8 i.val, generation := (look s.records i).generation } cause p.label]
      records := put s.records i { generation := (look s.records i).generation + 1, placement := none }
      pool := emptyPool s.pool (p.entriesOf p.occupiedSlots)
      commitSet := put s.commitSet i false
      expirySet := put s.expirySet i false })

/-- A departure that leaves a burst of the fence set queued takes one mark off the fence, which goes on, and the grants that
it makes possible are made; the completion commands are that departure where it ends a fence of their kind, and no event
where the fence goes on (R50, R145, R153; logs 1, 2). -/
def Obligations.AFenceWaitsForItsLastBurst : Prop :=
  ∀ (s : State) (op : FenceOperation) (how : Departure), s.engine = .fence op → s.answers how = true →
    (awaiting op.awaited.tail = true →
      exec (departureCommand how) s =
        .next { (s.counted how).departed with engine := .fence { op with awaited := op.awaited.tail } }.grantAll ∧
      exec (.syncCompletion how) s = .next s ∧ exec (.commitCompletion how) s = .next s ∧
      exec (.releaseCompletion how) s = .next s) ∧
    (awaiting op.awaited.tail = false →
      (∀ r, op.request = .sync r → exec (.syncCompletion how) s = exec (departureCommand how) s) ∧
      (∀ i, op.request = .commit i → exec (.commitCompletion how) s = exec (departureCommand how) s) ∧
      (∀ i, op.request = .release i → exec (.releaseCompletion how) s = exec (departureCommand how) s))

/-- The departure that empties the fence set ends the operation in the same event. SYNC_COMPLETION posts OK.
COMMIT_COMPLETION returns the SUPERSEDED slot's entries to the pool, empties the slot and posts AMEND_APPLIED.
RELEASE_COMPLETION makes the record FREE at the next generation, returns its entries, clears its Commit and Expiry bits and
posts FREED with the old handle, the cause and the label. The grants that the departure makes possible are made in the
same event (R7, R8, R15, R35, R52, R53, R77, R116, R145). -/
def Obligations.FencesEndWithTheirEffects : Prop :=
  (∀ (s : State) (op : FenceOperation) (r : CommandRecord) (how : Departure), s.engine = .fence op →
    op.request = .sync r → r.command = .sync → s.answers how = true → awaiting op.awaited.tail = false →
    exec (.syncCompletion how) s =
      .next ((s.counted how).departed.concluded (.result r.tag 0x0C .ok none .empty)).grantAll) ∧
  (∀ (s : State) (op : FenceOperation) (i : RecordNo) (p : Placement) (x : SlotLetter) (g : Slot) (how : Departure),
    s.engine = .fence op → op.request = .commit i → op.target = [x] → s.placement? i = some p → p.slot x = some g →
    s.answers how = true → awaiting op.awaited.tail = false →
    exec (.commitCompletion how) s =
      .next { (s.counted how).departed.concluded (.amendApplied
          { index := BitVec.ofNat 8 i.val, generation := (look s.records i).generation } p.label) with
        records := put s.records i { look s.records i with placement := some (p.withSlot x none) }
        pool := emptyPool s.pool g.entries }.grantAll) ∧
  ∀ (s : State) (op : FenceOperation) (i : RecordNo) (p : Placement) (cause : DrainCause) (how : Departure),
    s.engine = .fence op → op.request = .release i → op.target = p.occupiedSlots → s.placement? i = some p →
    p.drain = some cause → s.answers how = true → awaiting op.awaited.tail = false →
    exec (.releaseCompletion how) s =
      .next { (s.counted how).departed.concluded (.freed
          { index := BitVec.ofNat 8 i.val, generation := (look s.records i).generation } cause p.label) with
        records := put s.records i { generation := (look s.records i).generation + 1, placement := none }
        pool := emptyPool s.pool (p.entriesOf p.occupiedSlots)
        commitSet := put s.commitSet i false
        expirySet := put s.expirySet i false }.grantAll

/-! ## Links and frames (06) -/

/-- SEGMENT_ARRIVAL in DISABLED is not taken; in SEEKING a good header raises the good run, and the fourth enters LOCKED
with an error run of 0, a header error sets the good run to 0, and the segment is discarded and not counted (R120, R121,
R122). That payload bytes beyond those the header reckons do not matter is the model's choice, and a segment handed over
with fewer is left out here (log 12). -/
def Obligations.SeekingCountsGoodHeaders : Prop :=
  ∀ (s : State) (l : LinkNo) (h : Vector Byte 8) (bs : List Byte),
    let k := look s.links l
    (k.state = .disabled → exec (.segmentArrival l h bs) s = .next s) ∧
    (k.state = .seeking → parseHeader h = none →
      exec (.segmentArrival l h bs) s = .next { s with links := put s.links l { k with goodRun := 0 } }) ∧
    ∀ g, k.state = .seeking → parseHeader h = some g → g.payloadLength k.pixelSize ≤ bs.length →
      (k.goodRun + 1 < 4 → exec (.segmentArrival l h bs) s =
        .next { s with links := put s.links l { k with goodRun := k.goodRun + 1 } }) ∧
      (k.goodRun + 1 = 4 → exec (.segmentArrival l h bs) s =
        .next { s with links := put s.links l { k with state := .locked, goodRun := 4, errorRun := 0 } })

/-- A header is good exactly when its sync word is B74Eh, its check byte is the CRC-8 of its first seven bytes and its
kind is 1, 2 or 3, and its fields are then those of the layout; a LINE's payload is its pixel count times the link's pixel
size, and an OPEN and a CLOSE have none. The CRC-8 is that of x^8 + x^2 + x + 1, from 00h, the bytes in the order sent and
each most significant bit first, with no final inversion; the check byte of a CLOSE of channel 0 is 72h (R121, R190). -/
def Obligations.HeadersAreCheckedAndRead : Prop :=
  (∀ h : Vector Byte 8, (parseHeader h).isSome = true ↔
    look h 0 = 0xB7 ∧ look h 1 = 0x4E ∧
      crc8 [look h 0, look h 1, look h 2, look h 3, look h 4, look h 5, look h 6] = look h 7 ∧
      1 ≤ (look h 2).toNat / 16 ∧ (look h 2).toNat / 16 ≤ 3) ∧
  (∀ (h : Vector Byte 8) (g : Segment), parseHeader h = some g →
    (g.kind = .openFrame ↔ (look h 2).toNat / 16 = 1) ∧ (g.kind = .line ↔ (look h 2).toNat / 16 = 2) ∧
      (g.kind = .closeFrame ↔ (look h 2).toNat / 16 = 3) ∧ g.channel.val = (look h 2).toNat % 16 ∧
      g.fieldA = look h 3 ++ look h 4 ∧ g.fieldB = look h 5 ++ look h 6 ∧
      ∀ z : PixelSize, g.payloadLength z = if g.kind = .line then g.fieldB.toNat * z.bytes else 0) ∧
  let timesX (r : Byte) : Byte := if r.getLsbD 7 then r <<< 1 ^^^ 0x07 else r <<< 1
  crc8 [] = 0 ∧
  (∀ (sent : List Byte) (b : Byte), crc8 (sent ++ [b]) =
    timesX (timesX (timesX (timesX (timesX (timesX (timesX (timesX (crc8 sent ^^^ b))))))))) ∧
  crc8 [0xB7, 0x4E, 0x30, 0, 0, 0, 0] = 0x72

/-- SEGMENT_ARRIVAL in LOCKED with a header error counts HEADER and raises the error run; the eighth in a row sets the
attention flag, truncates every open frame of the link, discards the FIFO and enters SEEKING with a good run of 0, and the
grants that the withdrawn request makes possible are made in the same event (R123, R128, R134, R135, R145). That abort
requests travelling to a truncated claim are discarded (log 9) and that the error run stays 8 (log 13) are the model's
choices. Premise of the lock loss: the claims agree with the contexts (R16), which every step keeps. -/
def Obligations.HeaderErrorsLoseLockAtTheEighth : Prop :=
  ∀ (s : State) (l : LinkNo) (h : Vector Byte 8) (bs : List Byte), (look s.links l).state = .locked →
    parseHeader h = none →
    let k := look s.links l
    let header := LinkCounter.header.place
    ((k.errorRun + 1 < 8) → exec (.segmentArrival l h bs) s = .next { s with links := put s.links l { k with
      errorRun := k.errorRun + 1, counters := put k.counters header (saturate (look k.counters header)) } }) ∧
    (k.errorRun + 1 = 8 → s.ClaimsAgree → ∃ t, exec (.segmentArrival l h bs) s = .next t.grantAll ∧
      t = { s with records := t.records, links := t.links, releaseSet := t.releaseSet, aborts := t.aborts } ∧
      s.FramesTruncated t l ∧
      look t.links l = { k with
        state := .seeking, goodRun := 0, errorRun := 8, fifo := [], attention := true,
        contexts := (look t.links l).contexts, counters := (look t.links l).counters } ∧
      look (look t.links l).counters header = saturate (look k.counters header) ∧
      ∀ n, n ≠ header → n ≠ LinkCounter.truncated.place →
        look (look t.links l).counters n = look k.counters n)

/-- SEGMENT_ARRIVAL in LOCKED with a good header sets the error run to 0 and offers the segment with its payload to the
FIFO. Behind 1 to 3 segments it joins as the newest. A LINE into an empty FIFO joins, and the grants that its request
makes possible are made in the same event. With 4 waiting the segment is dropped and OVERRUN counted, and the open frame
of its context is marked damaged exactly when it is a LINE and no OPEN or CLOSE of the context waits (R121, R123, R125,
R126, R145). An OPEN or CLOSE into an empty FIFO is stated with HeadsAreTakenInTheSameEvent. That payload bytes beyond
those the header reckons are dropped is the model's choice, and a segment handed over with fewer is left out here (log
12); the count of 4 is R125's, where R147 reads otherwise (log 24). -/
def Obligations.GoodSegmentsJoinTheFifoOrOverrun : Prop :=
  ∀ (s : State) (l : LinkNo) (h : Vector Byte 8) (bs : List Byte) (g : Segment), (look s.links l).state = .locked →
    parseHeader h = some g → g.payloadLength (look s.links l).pixelSize ≤ bs.length →
    let k := look s.links l
    let whole : Segment := { g with payload := bs.take (g.payloadLength k.pixelSize) }
    let c : Channel := if k.single then 0 else g.channel
    let overrun := LinkCounter.overrun.place
    let counted : Link :=
      { k with errorRun := 0, counters := put k.counters overrun (saturate (look k.counters overrun)) }
    let edgeWaits : Prop := ∃ e ∈ k.fifo, e.kind ≠ .line ∧ (if k.single then 0 else e.channel) = c
    (1 ≤ k.fifo.length → k.fifo.length < 4 → exec (.segmentArrival l h bs) s =
      .next { s with links := put s.links l { k with errorRun := 0, fifo := k.fifo ++ [whole] } }) ∧
    (k.fifo = [] → g.kind = .line → exec (.segmentArrival l h bs) s =
      .next { s with links := put s.links l { k with errorRun := 0, fifo := [whole] } }.grantAll) ∧
    (4 ≤ k.fifo.length → (g.kind ≠ .line ∨ look k.contexts c = none ∨ edgeWaits) →
      exec (.segmentArrival l h bs) s = .next { s with links := put s.links l counted }) ∧
    (∀ f, 4 ≤ k.fifo.length → g.kind = .line → look k.contexts c = some f → ¬ edgeWaits →
      exec (.segmentArrival l h bs) s = .next { s with
        links := put s.links l { counted with contexts := put k.contexts c (some { f with damaged := true }) } })

/-- A truncation of an IDLE context changes nothing; of an open frame it counts TRUNCATED and makes the context IDLE, and
a claimed record counts frames damaged, is unclaimed, and has its Release bit set if it is DRAINING, all in one event;
an abort request travelling to that claim is discarded (R17, R18, R21, R128; log 9). -/
def Obligations.ATruncationEndsTheFrame : Prop :=
  ∀ (s : State) (l : LinkNo) (c : Channel),
    let k := look s.links l
    let n := LinkCounter.truncated.place
    let idle : Vector Link 6 := put s.links l { k with
      contexts := put k.contexts c none, counters := put k.counters n (saturate (look k.counters n)) }
    (s.context? l c = none → s.truncate l c = s) ∧
    ∀ f, s.context? l c = some f →
      (f.phase.record? = none → s.truncate l c = { s with links := idle }) ∧
      ∀ i p, f.phase.record? = some i → s.placement? i = some p →
        s.truncate l c = { s with
          links := idle
          records := put s.records i { look s.records i with placement := some { p with
            claim := none, counters := { p.counters with damaged := p.counters.damaged + 1 } } }
          releaseSet := if p.drain.isSome then put s.releaseSet i true else s.releaseSet
          aborts := s.aborts.filter fun a => decide (a.record ≠ i) }

/-- OPEN that joins the empty FIFO of a LOCKED link: any open frame of its context is truncated first; then the context
becomes UNROUTED and UNROUTED is counted, when the key's entry is empty; or the record found is heard, and the context
becomes REFUSED, counting frames refused, when the declared size is not the record's next geometry; or the flip is taken
if a slot is STAGED, the record is claimed, and the context becomes HOLDING or PLACING by the hold flag (R12, R14, R19,
R24, R129, R162; log 2). -/
def Obligations.AnOpenRoutesTheFrame : Prop :=
  ∀ (s : State) (l : LinkNo) (ch : Channel) (a b : U16), (look s.links l).state = .locked →
    (look s.links l).fifo = [] →
    let c : Channel := if (look s.links l).single then 0 else ch
    let key : Key := { link := l, channel := c }
    let u : State := { s with links := put s.links l { look s.links l with errorRun := 0 } }.truncate l c
    let k := look u.links l
    let n := LinkCounter.unrouted.place
    let opened (ph : FramePhase) : Option Frame :=
      some { phase := ph, width := a, height := b, last := none, accepted := 0, damaged := false }
    let context (k : Link) (ph : FramePhase) : Link := { k with contexts := put k.contexts c (opened ph), fifo := [] }
    (look u.keyIndex key.place = none → exec (.openFrame l (.joins ch a b)) s =
      .next { u with links := put u.links l (context
        { k with counters := put k.counters n (saturate (look k.counters n)) } .unrouted) }) ∧
    ∀ i p, look u.keyIndex key.place = some i → u.placement? i = some p →
      let heard : Placement := { p with activity := .flowing, age := 0 }
      let write (q : Placement) : Vector Record 64 :=
        put u.records i { look u.records i with placement := some q }
      let claimed : FramePhase := if p.hold then .holding i else .placing i
      (p.nextGeometry ≠ some (a, b) → exec (.openFrame l (.joins ch a b)) s = .next { u with
        records := write { heard with counters := { p.counters with refused := p.counters.refused + 1 } }
        links := put u.links l (context k .refused) }) ∧
      (p.nextGeometry = some (a, b) → p.slotsIn .staged = [] →
        exec (.openFrame l (.joins ch a b)) s = .next { u with
          records := write { heard with claim := some key }
          links := put u.links l (context k claimed) }) ∧
      (p.nextGeometry = some (a, b) → p.slotsIn .staged ≠ [] →
        exec (.openFrame l (.joins ch a b)) s = .next { u with
          records := write { heard with
            claim := some key
            slotA := p.slotA.map fun g => { g with phase := g.phase.flipped }
            slotB := p.slotB.map fun g => { g with phase := g.phase.flipped } }
          commitSet := put u.commitSet i true
          links := put u.links l (context k claimed) })

/-- CLOSE that joins the empty FIFO of a LOCKED link: for an IDLE context NO_CONTEXT is counted; a REFUSED or UNROUTED
frame ends uncounted; a PLACING frame counts frames placed when every line was accepted and it is not damaged, a HOLDING
frame frames held when every line was accepted, and either counts frames damaged otherwise; the record is unclaimed, its
Release bit is set if it is DRAINING, and an abort request travelling to it is discarded (R17, R18, R21, R132; logs 2,
9). -/
def Obligations.ACloseCountsTheFrame : Prop :=
  ∀ (s : State) (l : LinkNo) (ch : Channel) (a b : U16), (look s.links l).state = .locked →
    (look s.links l).fifo = [] →
    let k : Link := { look s.links l with errorRun := 0 }
    let c : Channel := if k.single then 0 else ch
    let n := LinkCounter.noContext.place
    let idle : Vector Link 6 := put s.links l { k with contexts := put k.contexts c none }
    (s.context? l c = none → exec (.closeFrame l (.joins ch a b)) s =
      .next { s with links := put s.links l { k with
        counters := put k.counters n (saturate (look k.counters n)) } }) ∧
    ∀ f, s.context? l c = some f →
      (f.phase.record? = none → exec (.closeFrame l (.joins ch a b)) s = .next { s with links := idle }) ∧
      ∀ i p, f.phase.record? = some i → s.placement? i = some p →
        let full : Prop := f.accepted = f.height.toNat
        let ended (q : RecordCounters) : State := { s with
          links := idle
          records := put s.records i { look s.records i with placement := some { p with claim := none, counters := q } }
          releaseSet := if p.drain.isSome then put s.releaseSet i true else s.releaseSet
          aborts := s.aborts.filter fun a => decide (a.record ≠ i) }
        (f.phase = .placing i → full → f.damaged = false → exec (.closeFrame l (.joins ch a b)) s =
          .next (ended { p.counters with placed := p.counters.placed + 1 })) ∧
        (f.phase = .placing i → (¬ full ∨ f.damaged = true) → exec (.closeFrame l (.joins ch a b)) s =
          .next (ended { p.counters with damaged := p.counters.damaged + 1 })) ∧
        (f.phase = .holding i → full → exec (.closeFrame l (.joins ch a b)) s =
          .next (ended { p.counters with held := p.counters.held + 1 })) ∧
        (f.phase = .holding i → ¬ full → exec (.closeFrame l (.joins ch a b)) s =
          .next (ended { p.counters with damaged := p.counters.damaged + 1 }))

/-- OPEN and CLOSE behind a granted LINE are processed in the event of that grant, in FIFO order, up to the next LINE: an
empty rest leaves the FIFO empty, a LINE stays at the head with all behind it, an OPEN or CLOSE is processed and the next
follows. So the command that names the departure which makes room for the LINE is that departure. A good OPEN or CLOSE
segment that arrives on a LOCKED link with an empty FIFO is the same event as the command (R125, R126, R145; log 2; that
bytes behind its header do not matter is the model's choice, log 12). -/
def Obligations.HeadsAreTakenInTheSameEvent : Prop :=
  (∀ (s : State) (how : Departure) (l : LinkNo) (n : Nat), s.answers how = true →
    let t := (s.countDeparture how).depart
    t.granted = some l →
    let behind := (look t.links l).fifo.tail
    (∀ j, j < n → ∃ g, behind[j]? = some g ∧ g.kind ≠ .line) → ∀ g, behind[n]? = some g →
      (g.kind = .openFrame → exec (.openFrame l (.behindGrantedLine how)) s = exec (departureCommand how) s) ∧
      (g.kind = .closeFrame → exec (.closeFrame l (.behindGrantedLine how)) s = exec (departureCommand how) s)) ∧
  (∀ (s : State) (l : LinkNo) (h : Vector Byte 8) (bs : List Byte) (g : Segment), (look s.links l).state = .locked →
    (look s.links l).fifo = [] → parseHeader h = some g →
    (g.kind = .openFrame → exec (.segmentArrival l h bs) s =
      exec (.openFrame l (.joins g.channel g.fieldA g.fieldB)) s) ∧
    (g.kind = .closeFrame → exec (.segmentArrival l h bs) s =
      exec (.closeFrame l (.joins g.channel g.fieldA g.fieldB)) s)) ∧
  ∀ (s : State) (l : LinkNo),
    s.takeHeads l [] = { s with links := put s.links l { look s.links l with fifo := [] } } ∧
    ∀ (g : Segment) (rest : List Segment),
      (g.kind = .line → s.takeHeads l (g :: rest) =
        { s with links := put s.links l { look s.links l with fifo := g :: rest } }) ∧
      (g.kind = .openFrame → s.takeHeads l (g :: rest) = (s.processOpen l g).takeHeads l rest) ∧
      (g.kind = .closeFrame → s.takeHeads l (g :: rest) = (s.processClose l g).takeHeads l rest)

/-- ABORT_REQUEST: a travelling request is taken once; when the named context is PLACING or HOLDING and claims the named
record, its frame is truncated, and a LINE of it that waits at the head asks for 0 entries from then on, with the grants
that this makes possible in the same event; in any other case nothing else changes, and the truncation does not touch the
FIFO (R18, R126, R133, R145). A request that is not travelling is not taken (log 1). -/
def Obligations.AnAbortTruncatesOnlyTheClaimingFrame : Prop :=
  ∀ (s : State) (i : RecordNo) (l : LinkNo) (c : Channel),
    let request : Abort := { record := i, context := { link := l, channel := c } }
    let taken : State := { s with aborts := s.aborts.erase request }
    (request ∉ s.aborts → exec (.abortRequest i l c) s = .next s) ∧
    (request ∈ s.aborts →
      (∀ f, s.context? l c = some f → (f.phase = .placing i ∨ f.phase = .holding i) →
        exec (.abortRequest i l c) s = .next (taken.truncate l c).grantAll ∧
          (look (taken.truncate l c).links l).fifo = (look s.links l).fifo ∧
          ∀ g rest, (look s.links l).fifo = g :: rest → g.kind = .line →
            (if (look s.links l).single then 0 else g.channel) = c →
            (taken.truncate l c).roomRequest l = some 0) ∧
      ((∀ f, s.context? l c = some f → f.phase ≠ .placing i ∧ f.phase ≠ .holding i) →
        exec (.abortRequest i l c) s = .next taken))

/-! ## Placement and the frame-store port (07) -/

/-- A link holds a room request exactly while a LINE is at the head of its FIFO, and asks for the number of bursts the line
would make: the ACTIVE slot's destinations whose source rows hold it, when its frame is PLACING and it passes its checks, and
0 otherwise. The link granted is the first, in cyclic order from the one after the last granted, that holds a request, and
only when its request is no greater than the free entries of the Burst Queue. An event makes every grant that is possible,
one after another, and leaves none; GRANT makes them where some are (R126, R131, R139, R144, R145), and where none is, it
changes nothing: the model's choice (log 1). -/
def Obligations.GrantsGoToTheLinkInTurn : Prop :=
  (∀ (s : State) (l : LinkNo),
    ((∀ g ∈ (look s.links l).fifo.head?, g.kind ≠ .line) → s.roomRequest l = none) ∧
    ∀ g rest, (look s.links l).fifo = g :: rest → g.kind = .line →
      let c : Channel := if (look s.links l).single then 0 else g.channel
      (s.context? l c = none → s.roomRequest l = some 0) ∧
      ∀ f, s.context? l c = some f →
        (f.lineFault g ≠ none ∨ (∀ i, f.phase ≠ .placing i) → s.roomRequest l = some 0) ∧
        ∀ i p x v, f.lineFault g = none → f.phase = .placing i → s.placement? i = some p → p.slotsIn .active = [x] →
          p.slot x = some v →
          (∀ e ∈ v.entries, ∃ en pl, look s.pool e = some en ∧ look s.planes en.plane = some pl) →
          s.roomRequest l = some (v.entries.countP fun e =>
            match look s.pool e with
            | some en => decide (en.cropY.toNat ≤ g.fieldA.toNat ∧ g.fieldA.toNat < en.cropY.toNat + en.height.toNat)
            | none => false)) ∧
  ∀ s : State,
    (∀ l, s.granted = some l ↔ ∃ n k, n < 6 ∧ l.val = (s.lastGranted.val + 1 + n) % 6 ∧ s.roomRequest l = some k ∧
      k ≤ 32 - s.bursts.length ∧
      ∀ m (l' : LinkNo), m < n → l'.val = (s.lastGranted.val + 1 + m) % 6 → s.roomRequest l' = none) ∧
    (∀ l, s.granted = some l → s.grantAll = (s.doGrant l).grantAll) ∧ (s.granted = none → s.grantAll = s) ∧
    s.grantAll.granted = none ∧ exec .grant s = .next s.grantAll

/-- A LINE at the head of the FIFO is processed at its grant against its context: NO_CONTEXT, RANGE, ORDER and LENGTH are
checked in that order, the first that fails is counted, drops the line and (but for NO_CONTEXT) marks the frame damaged;
a line that passes is accepted: it is the last accepted line, the count rises by one, and its bursts join the queue. The
link is the last granted, and what stands behind in the FIFO comes to the head; then the next grant that is possible follows (R126, R130,
R131, R144, R145). -/
def Obligations.AGrantedLineIsCheckedAndAccepted : Prop :=
  ∀ (s : State) (l : LinkNo) (g : Segment) (rest : List Segment), s.granted = some l →
    (look s.links l).fifo = g :: rest →
    let k := look s.links l
    let c : Channel := if k.single then 0 else g.channel
    let u : State := { s with lastGranted := l }
    let counted (n : LinkCounter) (v : Option Frame) : State := { u with
      links := put s.links l { k with
        counters := put k.counters n.place (saturate (look k.counters n.place)), contexts := put k.contexts c v } }
    (s.context? l c = none → exec .grant s = .next ((counted .noContext none).takeHeads l rest).grantAll) ∧
    ∀ f, s.context? l c = some f →
      let marked : Option Frame := some { f with damaged := true }
      let late : Prop := ∃ m, f.last = some m ∧ g.fieldA.toNat ≤ m.toNat
      (f.height.toNat ≤ g.fieldA.toNat → exec .grant s = .next ((counted .range marked).takeHeads l rest).grantAll) ∧
      (g.fieldA.toNat < f.height.toNat → late → exec .grant s = .next ((counted .order marked).takeHeads l rest).grantAll) ∧
      (g.fieldA.toNat < f.height.toNat → ¬ late → g.fieldB ≠ f.width →
        exec .grant s = .next ((counted .length marked).takeHeads l rest).grantAll) ∧
      (g.fieldA.toNat < f.height.toNat → ¬ late → g.fieldB = f.width →
        exec .grant s = .next ({ u.joinBursts (s.lineBursts l g) with
          links := put s.links l { k with
            contexts := put k.contexts c (some { f with last := some g.fieldA, accepted := f.accepted + 1 }) }
          }.takeHeads l rest).grantAll)

/-- The bursts of an accepted line: one, in list order, for each destination of the ACTIVE slot whose source rows hold
the line, with its address, length, data and tag; they join the queue behind every other burst, and the first is issued
when the queue was empty. A frame that is HOLDING, REFUSED or UNROUTED makes none (R131, R141, R142, R148). -/
def Obligations.AnAcceptedLineMakesItsBursts : Prop :=
  (∀ (s : State) (l : LinkNo) (g : Segment) (f : Frame),
    s.context? l (if (look s.links l).single then 0 else g.channel) = some f → f.lineFault g = none →
    (f.phase = .refused ∨ f.phase = .unrouted ∨ (∃ i, f.phase = .holding i) → s.lineBursts l g = []) ∧
    (∀ i p x v, f.phase = .placing i → s.placement? i = some p → p.slotsIn .active = [x] → p.slot x = some v →
      (∀ e ∈ v.entries, ∃ en pl, look s.pool e = some en ∧ look s.planes en.plane = some pl) →
      let n := g.fieldA.toNat
      let made (e : EntryNo) (b : Burst) : Prop :=
        ∃ en pl, look s.pool e = some en ∧ look s.planes en.plane = some pl ∧
          b = { address := BitVec.ofNat 32 (pl.base.toNat + (en.y.toNat + n - en.cropY.toNat) * pl.pitch.toNat +
                  en.x.toNat * pl.pixelSize.bytes)
                length := en.width.toNat * pl.pixelSize.bytes
                data := (g.payload.drop (en.cropX.toNat * pl.pixelSize.bytes)).take
                  (en.width.toNat * pl.pixelSize.bytes)
                record := i, slot := x, link := l }
      let takes (e : EntryNo) : Bool :=
        match look s.pool e with
        | some en => decide (en.cropY.toNat ≤ n ∧ n < en.cropY.toNat + en.height.toNat)
        | none => false
      List.Forall₂ made (v.entries.filter takes) (s.lineBursts l g))) ∧
  ∀ (s : State) (bs : List Burst),
    (s.bursts ≠ [] ∨ bs = [] → s.joinBursts bs = { s with bursts := s.bursts ++ bs }) ∧
    (s.bursts = [] → bs ≠ [] → s.joinBursts bs =
      { s with bursts := bs, issueNumber := s.issueNumber + 1, timer := some s.ackTimeout })

/-- While a burst is outstanding the port presents the head of the Burst Queue: its address, length, issue number and data in
16-bit beats, the byte at the lower address in the upper half; while none is, it presents no burst. While the engine is not in
FENCE, an acknowledgement or error response with the outstanding burst's issue number, and the expiry of its timer, remove the
head of the Burst Queue and issue the next burst with the next number and the timeout in force, and the grants that the entry
freed makes possible are made; an error counts FS_REFUSED, an expiry FS_TIMEOUT, and both set the attention flag. In FENCE the
departure also reaches the fence, which is stated apart. An answer that does not carry the outstanding burst's issue number,
or that is taken while no burst is outstanding, is ignored, and no timer expires while none is outstanding (R145, R148 to R152,
R155, R156, R185, R191). -/
def Obligations.AnswersEndTheOutstandingBurst : Prop :=
  (∀ s : State, (s.outstanding = false → s.framestoreOutput = none) ∧
    ∀ b rest, s.outstanding = true → s.bursts = b :: rest → ∃ beats,
      s.framestoreOutput = some { address := b.address, length := b.length, issueNumber := s.issueNumber, beats := beats } ∧
      beats.length = b.data.length / 2 ∧
      ∀ (n : Nat) (upper lower : Byte), b.data[2 * n]? = some upper → b.data[2 * n + 1]? = some lower →
        beats[n]? = some (upper ++ lower)) ∧
  (∀ s : State, s.outstanding = true → (∀ op, s.engine ≠ .fence op) →
    exec (.acknowledgement s.issueNumber) s = .next s.departed.grantAll ∧
    exec (.errorResponse s.issueNumber) s =
      .next { s with fsRefused := saturate s.fsRefused, fsAttention := true }.departed.grantAll ∧
    exec .ackTimeout s = .next { s with fsTimeout := saturate s.fsTimeout, fsAttention := true }.departed.grantAll) ∧
  ∀ (s : State) (n : BitVec 4), (s.outstanding = false ∨ n ≠ s.issueNumber →
    exec (.acknowledgement n) s = .next s ∧ exec (.errorResponse n) s = .next s) ∧
    (s.outstanding = false → exec .ackTimeout s = .next s)

/-! ## The Silence Monitor (08) -/

/-- MILLISECOND_STEP counts the boundary, raises the age of every aged record by one, makes each that reaches its interval
SILENT with its Expiry bit set, and leaves every other record; aged is LIVE with an interval and NEW or FLOWING (R159,
R160, R161). That the steps of all records are one event is log 10, and that the count of whole milliseconds is held and
rises by one is log 11: the model's choices. -/
def Obligations.AMillisecondAgesTheAgedRecords : Prop :=
  ∀ s : State, ∃ t, exec .millisecondStep s = .next t ∧
    t = { s with timebase := s.timebase + 1, records := t.records, expirySet := t.expirySet } ∧
    (∀ i, (look t.records i).generation = (look s.records i).generation) ∧
    (∀ i, s.placement? i = none → t.placement? i = none ∧ look t.expirySet i = look s.expirySet i) ∧
    ∀ i p, s.placement? i = some p →
      (p.drain ≠ none ∨ p.interval = none ∨ p.activity = .silent →
        t.placement? i = some p ∧ look t.expirySet i = look s.expirySet i) ∧
      (∀ n, p.drain = none → p.interval = some n → p.activity ≠ .silent →
        (p.age + 1 ≠ n → t.placement? i = some { p with age := p.age + 1 } ∧
          look t.expirySet i = look s.expirySet i) ∧
        (p.age + 1 = n → t.placement? i = some { p with age := p.age + 1, activity := .silent } ∧
          look t.expirySet i = true))

/-- EXPIRY of an aged record whose next age step brings its age to its interval: the record becomes SILENT, its age is left
at the interval, its Expiry bit is set, and no other state of the record changes; the event is the millisecond boundary at
which this happens, with the age steps of the other records, so that an expiry comes at a whole step of the timebase (R161,
R167; that one command is the whole boundary is the model's choice, logs 2 and 10). -/
def Obligations.AnExpirySilencesTheRecord : Prop :=
  ∀ (s : State) (i : RecordNo) (p : Placement) (n : U16), s.placement? i = some p → p.drain = none →
    p.interval = some n → p.activity ≠ .silent → p.age + 1 = n →
    ∃ t, exec (.expiry i) s = .next t ∧ exec .millisecondStep s = .next t ∧ t.timebase = s.timebase + 1 ∧
      look t.records i = { look s.records i with placement := some { p with age := n, activity := .silent } } ∧
      look t.expirySet i = true

/-! ## What every step keeps -/

/-- After reset, whatever commands wait, the accounts hold, the tables agree, and the windows are apart. -/
def Obligations.TheInvariantsHoldAtReset : Prop :=
  ∀ cs : List Instr, { State.reset with pending := cs }.Accounted ∧ { State.reset with pending := cs }.TablesAgree ∧
    { State.reset with pending := cs }.WindowsApart

/-- Every step keeps the accounts: one reservation exactly while an operation is in flight, filled plus reserved at most
32, at most 16 commands, 32 bursts and 4 segments, a burst outstanding exactly while the queue holds one, a fence that
waits for a queued burst, frames and segments only on a LOCKED link, and a management frame in its request
part only while that part is not complete (R57, R78, R120, R125, R147, R148, R171, R172). -/
def Obligations.EveryStepKeepsTheAccounts : Prop :=
  ∀ s t : State, s.Accounted → step s = .next t → t.Accounted

/-- Every step keeps the tables in agreement: one ACTIVE slot for each record, the Key Index the map of the LIVE records,
claims and claiming frames each other's inverse, an abort request travelling only to the claim of a DRAINING record,
pending bits only where R77 lets them be, and what the operation in flight found at its start still true (R10, R16, R18,
R23, R48, R77). That no abort request travels on once its claim has ended is the model's choice (log 9): R18 lets one travel
and gives it no effect. -/
def Obligations.EveryStepKeepsTheTablesInAgreement : Prop :=
  ∀ s t : State, s.TablesAgree → step s = .next t → t.TablesAgree

/-- Every step keeps, with the accounts and the agreement of the tables: the pool and the destination lists agree; no two
records' entries share a pixel; every queued burst lies inside a rectangle of an OCCUPIED entry of the record and slot it
is tagged with; the memory ranges of the defined planes are disjoint; and what these rest on: entries inside their planes
and crops inside their sources, claiming frames of the ACTIVE slot's size, waiting lines of the reckoned length, start
checks that still pass and what the scan in flight has found, the marks of the fence in flight, and no grant that is
possible left waiting (R28, R30, R33, R36, R37, R39, R40, R48, R51, R143, R145). -/
def Obligations.EveryStepKeepsTheWindowsApart : Prop :=
  ∀ s t : State, s.Accounted → s.TablesAgree → s.WindowsApart → step s = .next t →
    t.Accounted ∧ t.TablesAgree ∧ t.WindowsApart
end

