-- ==== Sys2Proof/Laws/State.lean ====
section
/-! SUPPORT. The record updates, once: what each named update of `State` makes of each field. -/

namespace Sys2Proof.Machine

/-! ## State.setPlacement -/

@[simp] theorem State.setPlacement_pending (s : State) (i : RecordNo) (p : Placement) :
    (s.setPlacement i p).pending = s.pending := rfl
@[simp] theorem State.setPlacement_draws (s : State) (i : RecordNo) (p : Placement) :
    (s.setPlacement i p).draws = s.draws := rfl
@[simp] theorem State.setPlacement_reply (s : State) (i : RecordNo) (p : Placement) :
    (s.setPlacement i p).reply = s.reply := rfl
@[simp] theorem State.setPlacement_frame (s : State) (i : RecordNo) (p : Placement) :
    (s.setPlacement i p).frame = s.frame := rfl
@[simp] theorem State.setPlacement_irqMask (s : State) (i : RecordNo) (p : Placement) :
    (s.setPlacement i p).irqMask = s.irqMask := rfl
@[simp] theorem State.setPlacement_refillMark (s : State) (i : RecordNo) (p : Placement) :
    (s.setPlacement i p).refillMark = s.refillMark := rfl
@[simp] theorem State.setPlacement_gateOpen (s : State) (i : RecordNo) (p : Placement) :
    (s.setPlacement i p).gateOpen = s.gateOpen := rfl
@[simp] theorem State.setPlacement_commandQueue (s : State) (i : RecordNo) (p : Placement) :
    (s.setPlacement i p).commandQueue = s.commandQueue := rfl
@[simp] theorem State.setPlacement_backup (s : State) (i : RecordNo) (p : Placement) :
    (s.setPlacement i p).backup = s.backup := rfl
@[simp] theorem State.setPlacement_prioritySlot (s : State) (i : RecordNo) (p : Placement) :
    (s.setPlacement i p).prioritySlot = s.prioritySlot := rfl
@[simp] theorem State.setPlacement_levels (s : State) (i : RecordNo) (p : Placement) :
    (s.setPlacement i p).levels = s.levels := rfl
@[simp] theorem State.setPlacement_releaseSet (s : State) (i : RecordNo) (p : Placement) :
    (s.setPlacement i p).releaseSet = s.releaseSet := rfl
@[simp] theorem State.setPlacement_commitSet (s : State) (i : RecordNo) (p : Placement) :
    (s.setPlacement i p).commitSet = s.commitSet := rfl
@[simp] theorem State.setPlacement_expirySet (s : State) (i : RecordNo) (p : Placement) :
    (s.setPlacement i p).expirySet = s.expirySet := rfl
@[simp] theorem State.setPlacement_engine (s : State) (i : RecordNo) (p : Placement) :
    (s.setPlacement i p).engine = s.engine := rfl
@[simp] theorem State.setPlacement_responses (s : State) (i : RecordNo) (p : Placement) :
    (s.setPlacement i p).responses = s.responses := rfl
@[simp] theorem State.setPlacement_reserved (s : State) (i : RecordNo) (p : Placement) :
    (s.setPlacement i p).reserved = s.reserved := rfl
@[simp] theorem State.setPlacement_aborts (s : State) (i : RecordNo) (p : Placement) :
    (s.setPlacement i p).aborts = s.aborts := rfl
@[simp] theorem State.setPlacement_records (s : State) (i : RecordNo) (p : Placement) :
    (s.setPlacement i p).records = put s.records i { look s.records i with placement := some p } := rfl
@[simp] theorem State.setPlacement_keyIndex (s : State) (i : RecordNo) (p : Placement) :
    (s.setPlacement i p).keyIndex = s.keyIndex := rfl
@[simp] theorem State.setPlacement_pool (s : State) (i : RecordNo) (p : Placement) :
    (s.setPlacement i p).pool = s.pool := rfl
@[simp] theorem State.setPlacement_planes (s : State) (i : RecordNo) (p : Placement) :
    (s.setPlacement i p).planes = s.planes := rfl
@[simp] theorem State.setPlacement_links (s : State) (i : RecordNo) (p : Placement) :
    (s.setPlacement i p).links = s.links := rfl
@[simp] theorem State.setPlacement_lastGranted (s : State) (i : RecordNo) (p : Placement) :
    (s.setPlacement i p).lastGranted = s.lastGranted := rfl
@[simp] theorem State.setPlacement_bursts (s : State) (i : RecordNo) (p : Placement) :
    (s.setPlacement i p).bursts = s.bursts := rfl
@[simp] theorem State.setPlacement_issueNumber (s : State) (i : RecordNo) (p : Placement) :
    (s.setPlacement i p).issueNumber = s.issueNumber := rfl
@[simp] theorem State.setPlacement_timer (s : State) (i : RecordNo) (p : Placement) :
    (s.setPlacement i p).timer = s.timer := rfl
@[simp] theorem State.setPlacement_ackTimeout (s : State) (i : RecordNo) (p : Placement) :
    (s.setPlacement i p).ackTimeout = s.ackTimeout := rfl
@[simp] theorem State.setPlacement_fsRefused (s : State) (i : RecordNo) (p : Placement) :
    (s.setPlacement i p).fsRefused = s.fsRefused := rfl
@[simp] theorem State.setPlacement_fsTimeout (s : State) (i : RecordNo) (p : Placement) :
    (s.setPlacement i p).fsTimeout = s.fsTimeout := rfl
@[simp] theorem State.setPlacement_fsAttention (s : State) (i : RecordNo) (p : Placement) :
    (s.setPlacement i p).fsAttention = s.fsAttention := rfl
@[simp] theorem State.setPlacement_timebase (s : State) (i : RecordNo) (p : Placement) :
    (s.setPlacement i p).timebase = s.timebase := rfl

/-! ## State.setLink -/

@[simp] theorem State.setLink_pending (s : State) (l : LinkNo) (k : Link) :
    (s.setLink l k).pending = s.pending := rfl
@[simp] theorem State.setLink_draws (s : State) (l : LinkNo) (k : Link) :
    (s.setLink l k).draws = s.draws := rfl
@[simp] theorem State.setLink_reply (s : State) (l : LinkNo) (k : Link) :
    (s.setLink l k).reply = s.reply := rfl
@[simp] theorem State.setLink_frame (s : State) (l : LinkNo) (k : Link) :
    (s.setLink l k).frame = s.frame := rfl
@[simp] theorem State.setLink_irqMask (s : State) (l : LinkNo) (k : Link) :
    (s.setLink l k).irqMask = s.irqMask := rfl
@[simp] theorem State.setLink_refillMark (s : State) (l : LinkNo) (k : Link) :
    (s.setLink l k).refillMark = s.refillMark := rfl
@[simp] theorem State.setLink_gateOpen (s : State) (l : LinkNo) (k : Link) :
    (s.setLink l k).gateOpen = s.gateOpen := rfl
@[simp] theorem State.setLink_commandQueue (s : State) (l : LinkNo) (k : Link) :
    (s.setLink l k).commandQueue = s.commandQueue := rfl
@[simp] theorem State.setLink_backup (s : State) (l : LinkNo) (k : Link) :
    (s.setLink l k).backup = s.backup := rfl
@[simp] theorem State.setLink_prioritySlot (s : State) (l : LinkNo) (k : Link) :
    (s.setLink l k).prioritySlot = s.prioritySlot := rfl
@[simp] theorem State.setLink_levels (s : State) (l : LinkNo) (k : Link) :
    (s.setLink l k).levels = s.levels := rfl
@[simp] theorem State.setLink_releaseSet (s : State) (l : LinkNo) (k : Link) :
    (s.setLink l k).releaseSet = s.releaseSet := rfl
@[simp] theorem State.setLink_commitSet (s : State) (l : LinkNo) (k : Link) :
    (s.setLink l k).commitSet = s.commitSet := rfl
@[simp] theorem State.setLink_expirySet (s : State) (l : LinkNo) (k : Link) :
    (s.setLink l k).expirySet = s.expirySet := rfl
@[simp] theorem State.setLink_engine (s : State) (l : LinkNo) (k : Link) :
    (s.setLink l k).engine = s.engine := rfl
@[simp] theorem State.setLink_responses (s : State) (l : LinkNo) (k : Link) :
    (s.setLink l k).responses = s.responses := rfl
@[simp] theorem State.setLink_reserved (s : State) (l : LinkNo) (k : Link) :
    (s.setLink l k).reserved = s.reserved := rfl
@[simp] theorem State.setLink_aborts (s : State) (l : LinkNo) (k : Link) :
    (s.setLink l k).aborts = s.aborts := rfl
@[simp] theorem State.setLink_records (s : State) (l : LinkNo) (k : Link) :
    (s.setLink l k).records = s.records := rfl
@[simp] theorem State.setLink_keyIndex (s : State) (l : LinkNo) (k : Link) :
    (s.setLink l k).keyIndex = s.keyIndex := rfl
@[simp] theorem State.setLink_pool (s : State) (l : LinkNo) (k : Link) :
    (s.setLink l k).pool = s.pool := rfl
@[simp] theorem State.setLink_planes (s : State) (l : LinkNo) (k : Link) :
    (s.setLink l k).planes = s.planes := rfl
@[simp] theorem State.setLink_links (s : State) (l : LinkNo) (k : Link) :
    (s.setLink l k).links = put s.links l k := rfl
@[simp] theorem State.setLink_lastGranted (s : State) (l : LinkNo) (k : Link) :
    (s.setLink l k).lastGranted = s.lastGranted := rfl
@[simp] theorem State.setLink_bursts (s : State) (l : LinkNo) (k : Link) :
    (s.setLink l k).bursts = s.bursts := rfl
@[simp] theorem State.setLink_issueNumber (s : State) (l : LinkNo) (k : Link) :
    (s.setLink l k).issueNumber = s.issueNumber := rfl
@[simp] theorem State.setLink_timer (s : State) (l : LinkNo) (k : Link) :
    (s.setLink l k).timer = s.timer := rfl
@[simp] theorem State.setLink_ackTimeout (s : State) (l : LinkNo) (k : Link) :
    (s.setLink l k).ackTimeout = s.ackTimeout := rfl
@[simp] theorem State.setLink_fsRefused (s : State) (l : LinkNo) (k : Link) :
    (s.setLink l k).fsRefused = s.fsRefused := rfl
@[simp] theorem State.setLink_fsTimeout (s : State) (l : LinkNo) (k : Link) :
    (s.setLink l k).fsTimeout = s.fsTimeout := rfl
@[simp] theorem State.setLink_fsAttention (s : State) (l : LinkNo) (k : Link) :
    (s.setLink l k).fsAttention = s.fsAttention := rfl
@[simp] theorem State.setLink_timebase (s : State) (l : LinkNo) (k : Link) :
    (s.setLink l k).timebase = s.timebase := rfl

/-! ## State.setContext -/

@[simp] theorem State.setContext_pending (s : State) (l : LinkNo) (c : Channel) (f : Option Frame) :
    (s.setContext l c f).pending = s.pending := rfl
@[simp] theorem State.setContext_draws (s : State) (l : LinkNo) (c : Channel) (f : Option Frame) :
    (s.setContext l c f).draws = s.draws := rfl
@[simp] theorem State.setContext_reply (s : State) (l : LinkNo) (c : Channel) (f : Option Frame) :
    (s.setContext l c f).reply = s.reply := rfl
@[simp] theorem State.setContext_frame (s : State) (l : LinkNo) (c : Channel) (f : Option Frame) :
    (s.setContext l c f).frame = s.frame := rfl
@[simp] theorem State.setContext_irqMask (s : State) (l : LinkNo) (c : Channel) (f : Option Frame) :
    (s.setContext l c f).irqMask = s.irqMask := rfl
@[simp] theorem State.setContext_refillMark (s : State) (l : LinkNo) (c : Channel) (f : Option Frame) :
    (s.setContext l c f).refillMark = s.refillMark := rfl
@[simp] theorem State.setContext_gateOpen (s : State) (l : LinkNo) (c : Channel) (f : Option Frame) :
    (s.setContext l c f).gateOpen = s.gateOpen := rfl
@[simp] theorem State.setContext_commandQueue (s : State) (l : LinkNo) (c : Channel) (f : Option Frame) :
    (s.setContext l c f).commandQueue = s.commandQueue := rfl
@[simp] theorem State.setContext_backup (s : State) (l : LinkNo) (c : Channel) (f : Option Frame) :
    (s.setContext l c f).backup = s.backup := rfl
@[simp] theorem State.setContext_prioritySlot (s : State) (l : LinkNo) (c : Channel) (f : Option Frame) :
    (s.setContext l c f).prioritySlot = s.prioritySlot := rfl
@[simp] theorem State.setContext_levels (s : State) (l : LinkNo) (c : Channel) (f : Option Frame) :
    (s.setContext l c f).levels = s.levels := rfl
@[simp] theorem State.setContext_releaseSet (s : State) (l : LinkNo) (c : Channel) (f : Option Frame) :
    (s.setContext l c f).releaseSet = s.releaseSet := rfl
@[simp] theorem State.setContext_commitSet (s : State) (l : LinkNo) (c : Channel) (f : Option Frame) :
    (s.setContext l c f).commitSet = s.commitSet := rfl
@[simp] theorem State.setContext_expirySet (s : State) (l : LinkNo) (c : Channel) (f : Option Frame) :
    (s.setContext l c f).expirySet = s.expirySet := rfl
@[simp] theorem State.setContext_engine (s : State) (l : LinkNo) (c : Channel) (f : Option Frame) :
    (s.setContext l c f).engine = s.engine := rfl
@[simp] theorem State.setContext_responses (s : State) (l : LinkNo) (c : Channel) (f : Option Frame) :
    (s.setContext l c f).responses = s.responses := rfl
@[simp] theorem State.setContext_reserved (s : State) (l : LinkNo) (c : Channel) (f : Option Frame) :
    (s.setContext l c f).reserved = s.reserved := rfl
@[simp] theorem State.setContext_aborts (s : State) (l : LinkNo) (c : Channel) (f : Option Frame) :
    (s.setContext l c f).aborts = s.aborts := rfl
@[simp] theorem State.setContext_records (s : State) (l : LinkNo) (c : Channel) (f : Option Frame) :
    (s.setContext l c f).records = s.records := rfl
@[simp] theorem State.setContext_keyIndex (s : State) (l : LinkNo) (c : Channel) (f : Option Frame) :
    (s.setContext l c f).keyIndex = s.keyIndex := rfl
@[simp] theorem State.setContext_pool (s : State) (l : LinkNo) (c : Channel) (f : Option Frame) :
    (s.setContext l c f).pool = s.pool := rfl
@[simp] theorem State.setContext_planes (s : State) (l : LinkNo) (c : Channel) (f : Option Frame) :
    (s.setContext l c f).planes = s.planes := rfl
@[simp] theorem State.setContext_links (s : State) (l : LinkNo) (c : Channel) (f : Option Frame) :
    (s.setContext l c f).links = put s.links l ((look s.links l).withContext c f) := rfl
@[simp] theorem State.setContext_lastGranted (s : State) (l : LinkNo) (c : Channel) (f : Option Frame) :
    (s.setContext l c f).lastGranted = s.lastGranted := rfl
@[simp] theorem State.setContext_bursts (s : State) (l : LinkNo) (c : Channel) (f : Option Frame) :
    (s.setContext l c f).bursts = s.bursts := rfl
@[simp] theorem State.setContext_issueNumber (s : State) (l : LinkNo) (c : Channel) (f : Option Frame) :
    (s.setContext l c f).issueNumber = s.issueNumber := rfl
@[simp] theorem State.setContext_timer (s : State) (l : LinkNo) (c : Channel) (f : Option Frame) :
    (s.setContext l c f).timer = s.timer := rfl
@[simp] theorem State.setContext_ackTimeout (s : State) (l : LinkNo) (c : Channel) (f : Option Frame) :
    (s.setContext l c f).ackTimeout = s.ackTimeout := rfl
@[simp] theorem State.setContext_fsRefused (s : State) (l : LinkNo) (c : Channel) (f : Option Frame) :
    (s.setContext l c f).fsRefused = s.fsRefused := rfl
@[simp] theorem State.setContext_fsTimeout (s : State) (l : LinkNo) (c : Channel) (f : Option Frame) :
    (s.setContext l c f).fsTimeout = s.fsTimeout := rfl
@[simp] theorem State.setContext_fsAttention (s : State) (l : LinkNo) (c : Channel) (f : Option Frame) :
    (s.setContext l c f).fsAttention = s.fsAttention := rfl
@[simp] theorem State.setContext_timebase (s : State) (l : LinkNo) (c : Channel) (f : Option Frame) :
    (s.setContext l c f).timebase = s.timebase := rfl

/-! ## State.countLink -/

@[simp] theorem State.countLink_pending (s : State) (l : LinkNo) (c : LinkCounter) :
    (s.countLink l c).pending = s.pending := rfl
@[simp] theorem State.countLink_draws (s : State) (l : LinkNo) (c : LinkCounter) :
    (s.countLink l c).draws = s.draws := rfl
@[simp] theorem State.countLink_reply (s : State) (l : LinkNo) (c : LinkCounter) :
    (s.countLink l c).reply = s.reply := rfl
@[simp] theorem State.countLink_frame (s : State) (l : LinkNo) (c : LinkCounter) :
    (s.countLink l c).frame = s.frame := rfl
@[simp] theorem State.countLink_irqMask (s : State) (l : LinkNo) (c : LinkCounter) :
    (s.countLink l c).irqMask = s.irqMask := rfl
@[simp] theorem State.countLink_refillMark (s : State) (l : LinkNo) (c : LinkCounter) :
    (s.countLink l c).refillMark = s.refillMark := rfl
@[simp] theorem State.countLink_gateOpen (s : State) (l : LinkNo) (c : LinkCounter) :
    (s.countLink l c).gateOpen = s.gateOpen := rfl
@[simp] theorem State.countLink_commandQueue (s : State) (l : LinkNo) (c : LinkCounter) :
    (s.countLink l c).commandQueue = s.commandQueue := rfl
@[simp] theorem State.countLink_backup (s : State) (l : LinkNo) (c : LinkCounter) :
    (s.countLink l c).backup = s.backup := rfl
@[simp] theorem State.countLink_prioritySlot (s : State) (l : LinkNo) (c : LinkCounter) :
    (s.countLink l c).prioritySlot = s.prioritySlot := rfl
@[simp] theorem State.countLink_levels (s : State) (l : LinkNo) (c : LinkCounter) :
    (s.countLink l c).levels = s.levels := rfl
@[simp] theorem State.countLink_releaseSet (s : State) (l : LinkNo) (c : LinkCounter) :
    (s.countLink l c).releaseSet = s.releaseSet := rfl
@[simp] theorem State.countLink_commitSet (s : State) (l : LinkNo) (c : LinkCounter) :
    (s.countLink l c).commitSet = s.commitSet := rfl
@[simp] theorem State.countLink_expirySet (s : State) (l : LinkNo) (c : LinkCounter) :
    (s.countLink l c).expirySet = s.expirySet := rfl
@[simp] theorem State.countLink_engine (s : State) (l : LinkNo) (c : LinkCounter) :
    (s.countLink l c).engine = s.engine := rfl
@[simp] theorem State.countLink_responses (s : State) (l : LinkNo) (c : LinkCounter) :
    (s.countLink l c).responses = s.responses := rfl
@[simp] theorem State.countLink_reserved (s : State) (l : LinkNo) (c : LinkCounter) :
    (s.countLink l c).reserved = s.reserved := rfl
@[simp] theorem State.countLink_aborts (s : State) (l : LinkNo) (c : LinkCounter) :
    (s.countLink l c).aborts = s.aborts := rfl
@[simp] theorem State.countLink_records (s : State) (l : LinkNo) (c : LinkCounter) :
    (s.countLink l c).records = s.records := rfl
@[simp] theorem State.countLink_keyIndex (s : State) (l : LinkNo) (c : LinkCounter) :
    (s.countLink l c).keyIndex = s.keyIndex := rfl
@[simp] theorem State.countLink_pool (s : State) (l : LinkNo) (c : LinkCounter) :
    (s.countLink l c).pool = s.pool := rfl
@[simp] theorem State.countLink_planes (s : State) (l : LinkNo) (c : LinkCounter) :
    (s.countLink l c).planes = s.planes := rfl
@[simp] theorem State.countLink_links (s : State) (l : LinkNo) (c : LinkCounter) :
    (s.countLink l c).links = put s.links l ((look s.links l).count c) := rfl
@[simp] theorem State.countLink_lastGranted (s : State) (l : LinkNo) (c : LinkCounter) :
    (s.countLink l c).lastGranted = s.lastGranted := rfl
@[simp] theorem State.countLink_bursts (s : State) (l : LinkNo) (c : LinkCounter) :
    (s.countLink l c).bursts = s.bursts := rfl
@[simp] theorem State.countLink_issueNumber (s : State) (l : LinkNo) (c : LinkCounter) :
    (s.countLink l c).issueNumber = s.issueNumber := rfl
@[simp] theorem State.countLink_timer (s : State) (l : LinkNo) (c : LinkCounter) :
    (s.countLink l c).timer = s.timer := rfl
@[simp] theorem State.countLink_ackTimeout (s : State) (l : LinkNo) (c : LinkCounter) :
    (s.countLink l c).ackTimeout = s.ackTimeout := rfl
@[simp] theorem State.countLink_fsRefused (s : State) (l : LinkNo) (c : LinkCounter) :
    (s.countLink l c).fsRefused = s.fsRefused := rfl
@[simp] theorem State.countLink_fsTimeout (s : State) (l : LinkNo) (c : LinkCounter) :
    (s.countLink l c).fsTimeout = s.fsTimeout := rfl
@[simp] theorem State.countLink_fsAttention (s : State) (l : LinkNo) (c : LinkCounter) :
    (s.countLink l c).fsAttention = s.fsAttention := rfl
@[simp] theorem State.countLink_timebase (s : State) (l : LinkNo) (c : LinkCounter) :
    (s.countLink l c).timebase = s.timebase := rfl

/-! ## State.answer -/

@[simp] theorem State.answer_pending (s : State) (bs : List Byte) :
    (s.answer bs).pending = s.pending := rfl
@[simp] theorem State.answer_draws (s : State) (bs : List Byte) :
    (s.answer bs).draws = s.draws := rfl
@[simp] theorem State.answer_reply (s : State) (bs : List Byte) :
    (s.answer bs).reply = bs := rfl
@[simp] theorem State.answer_frame (s : State) (bs : List Byte) :
    (s.answer bs).frame = s.frame := rfl
@[simp] theorem State.answer_irqMask (s : State) (bs : List Byte) :
    (s.answer bs).irqMask = s.irqMask := rfl
@[simp] theorem State.answer_refillMark (s : State) (bs : List Byte) :
    (s.answer bs).refillMark = s.refillMark := rfl
@[simp] theorem State.answer_gateOpen (s : State) (bs : List Byte) :
    (s.answer bs).gateOpen = s.gateOpen := rfl
@[simp] theorem State.answer_commandQueue (s : State) (bs : List Byte) :
    (s.answer bs).commandQueue = s.commandQueue := rfl
@[simp] theorem State.answer_backup (s : State) (bs : List Byte) :
    (s.answer bs).backup = s.backup := rfl
@[simp] theorem State.answer_prioritySlot (s : State) (bs : List Byte) :
    (s.answer bs).prioritySlot = s.prioritySlot := rfl
@[simp] theorem State.answer_levels (s : State) (bs : List Byte) :
    (s.answer bs).levels = s.levels := rfl
@[simp] theorem State.answer_releaseSet (s : State) (bs : List Byte) :
    (s.answer bs).releaseSet = s.releaseSet := rfl
@[simp] theorem State.answer_commitSet (s : State) (bs : List Byte) :
    (s.answer bs).commitSet = s.commitSet := rfl
@[simp] theorem State.answer_expirySet (s : State) (bs : List Byte) :
    (s.answer bs).expirySet = s.expirySet := rfl
@[simp] theorem State.answer_engine (s : State) (bs : List Byte) :
    (s.answer bs).engine = s.engine := rfl
@[simp] theorem State.answer_responses (s : State) (bs : List Byte) :
    (s.answer bs).responses = s.responses := rfl
@[simp] theorem State.answer_reserved (s : State) (bs : List Byte) :
    (s.answer bs).reserved = s.reserved := rfl
@[simp] theorem State.answer_aborts (s : State) (bs : List Byte) :
    (s.answer bs).aborts = s.aborts := rfl
@[simp] theorem State.answer_records (s : State) (bs : List Byte) :
    (s.answer bs).records = s.records := rfl
@[simp] theorem State.answer_keyIndex (s : State) (bs : List Byte) :
    (s.answer bs).keyIndex = s.keyIndex := rfl
@[simp] theorem State.answer_pool (s : State) (bs : List Byte) :
    (s.answer bs).pool = s.pool := rfl
@[simp] theorem State.answer_planes (s : State) (bs : List Byte) :
    (s.answer bs).planes = s.planes := rfl
@[simp] theorem State.answer_links (s : State) (bs : List Byte) :
    (s.answer bs).links = s.links := rfl
@[simp] theorem State.answer_lastGranted (s : State) (bs : List Byte) :
    (s.answer bs).lastGranted = s.lastGranted := rfl
@[simp] theorem State.answer_bursts (s : State) (bs : List Byte) :
    (s.answer bs).bursts = s.bursts := rfl
@[simp] theorem State.answer_issueNumber (s : State) (bs : List Byte) :
    (s.answer bs).issueNumber = s.issueNumber := rfl
@[simp] theorem State.answer_timer (s : State) (bs : List Byte) :
    (s.answer bs).timer = s.timer := rfl
@[simp] theorem State.answer_ackTimeout (s : State) (bs : List Byte) :
    (s.answer bs).ackTimeout = s.ackTimeout := rfl
@[simp] theorem State.answer_fsRefused (s : State) (bs : List Byte) :
    (s.answer bs).fsRefused = s.fsRefused := rfl
@[simp] theorem State.answer_fsTimeout (s : State) (bs : List Byte) :
    (s.answer bs).fsTimeout = s.fsTimeout := rfl
@[simp] theorem State.answer_fsAttention (s : State) (bs : List Byte) :
    (s.answer bs).fsAttention = s.fsAttention := rfl
@[simp] theorem State.answer_timebase (s : State) (bs : List Byte) :
    (s.answer bs).timebase = s.timebase := rfl

/-! ## State.answerCode -/

@[simp] theorem State.answerCode_pending (s : State) (r : Reply) :
    (s.answerCode r).pending = s.pending := rfl
@[simp] theorem State.answerCode_draws (s : State) (r : Reply) :
    (s.answerCode r).draws = s.draws := rfl
@[simp] theorem State.answerCode_reply (s : State) (r : Reply) :
    (s.answerCode r).reply = [r.byte] := rfl
@[simp] theorem State.answerCode_frame (s : State) (r : Reply) :
    (s.answerCode r).frame = s.frame := rfl
@[simp] theorem State.answerCode_irqMask (s : State) (r : Reply) :
    (s.answerCode r).irqMask = s.irqMask := rfl
@[simp] theorem State.answerCode_refillMark (s : State) (r : Reply) :
    (s.answerCode r).refillMark = s.refillMark := rfl
@[simp] theorem State.answerCode_gateOpen (s : State) (r : Reply) :
    (s.answerCode r).gateOpen = s.gateOpen := rfl
@[simp] theorem State.answerCode_commandQueue (s : State) (r : Reply) :
    (s.answerCode r).commandQueue = s.commandQueue := rfl
@[simp] theorem State.answerCode_backup (s : State) (r : Reply) :
    (s.answerCode r).backup = s.backup := rfl
@[simp] theorem State.answerCode_prioritySlot (s : State) (r : Reply) :
    (s.answerCode r).prioritySlot = s.prioritySlot := rfl
@[simp] theorem State.answerCode_levels (s : State) (r : Reply) :
    (s.answerCode r).levels = s.levels := rfl
@[simp] theorem State.answerCode_releaseSet (s : State) (r : Reply) :
    (s.answerCode r).releaseSet = s.releaseSet := rfl
@[simp] theorem State.answerCode_commitSet (s : State) (r : Reply) :
    (s.answerCode r).commitSet = s.commitSet := rfl
@[simp] theorem State.answerCode_expirySet (s : State) (r : Reply) :
    (s.answerCode r).expirySet = s.expirySet := rfl
@[simp] theorem State.answerCode_engine (s : State) (r : Reply) :
    (s.answerCode r).engine = s.engine := rfl
@[simp] theorem State.answerCode_responses (s : State) (r : Reply) :
    (s.answerCode r).responses = s.responses := rfl
@[simp] theorem State.answerCode_reserved (s : State) (r : Reply) :
    (s.answerCode r).reserved = s.reserved := rfl
@[simp] theorem State.answerCode_aborts (s : State) (r : Reply) :
    (s.answerCode r).aborts = s.aborts := rfl
@[simp] theorem State.answerCode_records (s : State) (r : Reply) :
    (s.answerCode r).records = s.records := rfl
@[simp] theorem State.answerCode_keyIndex (s : State) (r : Reply) :
    (s.answerCode r).keyIndex = s.keyIndex := rfl
@[simp] theorem State.answerCode_pool (s : State) (r : Reply) :
    (s.answerCode r).pool = s.pool := rfl
@[simp] theorem State.answerCode_planes (s : State) (r : Reply) :
    (s.answerCode r).planes = s.planes := rfl
@[simp] theorem State.answerCode_links (s : State) (r : Reply) :
    (s.answerCode r).links = s.links := rfl
@[simp] theorem State.answerCode_lastGranted (s : State) (r : Reply) :
    (s.answerCode r).lastGranted = s.lastGranted := rfl
@[simp] theorem State.answerCode_bursts (s : State) (r : Reply) :
    (s.answerCode r).bursts = s.bursts := rfl
@[simp] theorem State.answerCode_issueNumber (s : State) (r : Reply) :
    (s.answerCode r).issueNumber = s.issueNumber := rfl
@[simp] theorem State.answerCode_timer (s : State) (r : Reply) :
    (s.answerCode r).timer = s.timer := rfl
@[simp] theorem State.answerCode_ackTimeout (s : State) (r : Reply) :
    (s.answerCode r).ackTimeout = s.ackTimeout := rfl
@[simp] theorem State.answerCode_fsRefused (s : State) (r : Reply) :
    (s.answerCode r).fsRefused = s.fsRefused := rfl
@[simp] theorem State.answerCode_fsTimeout (s : State) (r : Reply) :
    (s.answerCode r).fsTimeout = s.fsTimeout := rfl
@[simp] theorem State.answerCode_fsAttention (s : State) (r : Reply) :
    (s.answerCode r).fsAttention = s.fsAttention := rfl
@[simp] theorem State.answerCode_timebase (s : State) (r : Reply) :
    (s.answerCode r).timebase = s.timebase := rfl

/-! ## State.withFrame -/

@[simp] theorem State.withFrame_pending (s : State) (f : PortFrame) : (s.withFrame f).pending = s.pending := rfl
@[simp] theorem State.withFrame_draws (s : State) (f : PortFrame) : (s.withFrame f).draws = s.draws := rfl
@[simp] theorem State.withFrame_reply (s : State) (f : PortFrame) : (s.withFrame f).reply = s.reply := rfl
@[simp] theorem State.withFrame_frame (s : State) (f : PortFrame) : (s.withFrame f).frame = f := rfl
@[simp] theorem State.withFrame_irqMask (s : State) (f : PortFrame) : (s.withFrame f).irqMask = s.irqMask := rfl
@[simp] theorem State.withFrame_refillMark (s : State) (f : PortFrame) :
    (s.withFrame f).refillMark = s.refillMark := rfl
@[simp] theorem State.withFrame_gateOpen (s : State) (f : PortFrame) : (s.withFrame f).gateOpen = s.gateOpen := rfl
@[simp] theorem State.withFrame_commandQueue (s : State) (f : PortFrame) :
    (s.withFrame f).commandQueue = s.commandQueue := rfl
@[simp] theorem State.withFrame_backup (s : State) (f : PortFrame) : (s.withFrame f).backup = s.backup := rfl
@[simp] theorem State.withFrame_prioritySlot (s : State) (f : PortFrame) :
    (s.withFrame f).prioritySlot = s.prioritySlot := rfl
@[simp] theorem State.withFrame_levels (s : State) (f : PortFrame) : (s.withFrame f).levels = s.levels := rfl
@[simp] theorem State.withFrame_releaseSet (s : State) (f : PortFrame) :
    (s.withFrame f).releaseSet = s.releaseSet := rfl
@[simp] theorem State.withFrame_commitSet (s : State) (f : PortFrame) : (s.withFrame f).commitSet = s.commitSet := rfl
@[simp] theorem State.withFrame_expirySet (s : State) (f : PortFrame) : (s.withFrame f).expirySet = s.expirySet := rfl
@[simp] theorem State.withFrame_engine (s : State) (f : PortFrame) : (s.withFrame f).engine = s.engine := rfl
@[simp] theorem State.withFrame_responses (s : State) (f : PortFrame) : (s.withFrame f).responses = s.responses := rfl
@[simp] theorem State.withFrame_reserved (s : State) (f : PortFrame) : (s.withFrame f).reserved = s.reserved := rfl
@[simp] theorem State.withFrame_aborts (s : State) (f : PortFrame) : (s.withFrame f).aborts = s.aborts := rfl
@[simp] theorem State.withFrame_records (s : State) (f : PortFrame) : (s.withFrame f).records = s.records := rfl
@[simp] theorem State.withFrame_keyIndex (s : State) (f : PortFrame) : (s.withFrame f).keyIndex = s.keyIndex := rfl
@[simp] theorem State.withFrame_pool (s : State) (f : PortFrame) : (s.withFrame f).pool = s.pool := rfl
@[simp] theorem State.withFrame_planes (s : State) (f : PortFrame) : (s.withFrame f).planes = s.planes := rfl
@[simp] theorem State.withFrame_links (s : State) (f : PortFrame) : (s.withFrame f).links = s.links := rfl
@[simp] theorem State.withFrame_lastGranted (s : State) (f : PortFrame) :
    (s.withFrame f).lastGranted = s.lastGranted := rfl
@[simp] theorem State.withFrame_bursts (s : State) (f : PortFrame) : (s.withFrame f).bursts = s.bursts := rfl
@[simp] theorem State.withFrame_issueNumber (s : State) (f : PortFrame) :
    (s.withFrame f).issueNumber = s.issueNumber := rfl
@[simp] theorem State.withFrame_timer (s : State) (f : PortFrame) : (s.withFrame f).timer = s.timer := rfl
@[simp] theorem State.withFrame_ackTimeout (s : State) (f : PortFrame) :
    (s.withFrame f).ackTimeout = s.ackTimeout := rfl
@[simp] theorem State.withFrame_fsRefused (s : State) (f : PortFrame) : (s.withFrame f).fsRefused = s.fsRefused := rfl
@[simp] theorem State.withFrame_fsTimeout (s : State) (f : PortFrame) : (s.withFrame f).fsTimeout = s.fsTimeout := rfl
@[simp] theorem State.withFrame_fsAttention (s : State) (f : PortFrame) :
    (s.withFrame f).fsAttention = s.fsAttention := rfl
@[simp] theorem State.withFrame_timebase (s : State) (f : PortFrame) : (s.withFrame f).timebase = s.timebase := rfl

/-! ## State.post -/

@[simp] theorem State.post_pending (s : State) (r : Response) :
    (s.post r).pending = s.pending := rfl
@[simp] theorem State.post_draws (s : State) (r : Response) :
    (s.post r).draws = s.draws := rfl
@[simp] theorem State.post_reply (s : State) (r : Response) :
    (s.post r).reply = s.reply := rfl
@[simp] theorem State.post_frame (s : State) (r : Response) :
    (s.post r).frame = s.frame := rfl
@[simp] theorem State.post_irqMask (s : State) (r : Response) :
    (s.post r).irqMask = s.irqMask := rfl
@[simp] theorem State.post_refillMark (s : State) (r : Response) :
    (s.post r).refillMark = s.refillMark := rfl
@[simp] theorem State.post_gateOpen (s : State) (r : Response) :
    (s.post r).gateOpen = s.gateOpen := rfl
@[simp] theorem State.post_commandQueue (s : State) (r : Response) :
    (s.post r).commandQueue = s.commandQueue := rfl
@[simp] theorem State.post_backup (s : State) (r : Response) :
    (s.post r).backup = s.backup := rfl
@[simp] theorem State.post_prioritySlot (s : State) (r : Response) :
    (s.post r).prioritySlot = s.prioritySlot := rfl
@[simp] theorem State.post_levels (s : State) (r : Response) :
    (s.post r).levels = s.levels := rfl
@[simp] theorem State.post_releaseSet (s : State) (r : Response) :
    (s.post r).releaseSet = s.releaseSet := rfl
@[simp] theorem State.post_commitSet (s : State) (r : Response) :
    (s.post r).commitSet = s.commitSet := rfl
@[simp] theorem State.post_expirySet (s : State) (r : Response) :
    (s.post r).expirySet = s.expirySet := rfl
@[simp] theorem State.post_engine (s : State) (r : Response) :
    (s.post r).engine = .idle := rfl
@[simp] theorem State.post_responses (s : State) (r : Response) :
    (s.post r).responses = s.responses ++ [r] := rfl
@[simp] theorem State.post_reserved (s : State) (r : Response) :
    (s.post r).reserved = s.reserved - 1 := rfl
@[simp] theorem State.post_aborts (s : State) (r : Response) :
    (s.post r).aborts = s.aborts := rfl
@[simp] theorem State.post_records (s : State) (r : Response) :
    (s.post r).records = s.records := rfl
@[simp] theorem State.post_keyIndex (s : State) (r : Response) :
    (s.post r).keyIndex = s.keyIndex := rfl
@[simp] theorem State.post_pool (s : State) (r : Response) :
    (s.post r).pool = s.pool := rfl
@[simp] theorem State.post_planes (s : State) (r : Response) :
    (s.post r).planes = s.planes := rfl
@[simp] theorem State.post_links (s : State) (r : Response) :
    (s.post r).links = s.links := rfl
@[simp] theorem State.post_lastGranted (s : State) (r : Response) :
    (s.post r).lastGranted = s.lastGranted := rfl
@[simp] theorem State.post_bursts (s : State) (r : Response) :
    (s.post r).bursts = s.bursts := rfl
@[simp] theorem State.post_issueNumber (s : State) (r : Response) :
    (s.post r).issueNumber = s.issueNumber := rfl
@[simp] theorem State.post_timer (s : State) (r : Response) :
    (s.post r).timer = s.timer := rfl
@[simp] theorem State.post_ackTimeout (s : State) (r : Response) :
    (s.post r).ackTimeout = s.ackTimeout := rfl
@[simp] theorem State.post_fsRefused (s : State) (r : Response) :
    (s.post r).fsRefused = s.fsRefused := rfl
@[simp] theorem State.post_fsTimeout (s : State) (r : Response) :
    (s.post r).fsTimeout = s.fsTimeout := rfl
@[simp] theorem State.post_fsAttention (s : State) (r : Response) :
    (s.post r).fsAttention = s.fsAttention := rfl
@[simp] theorem State.post_timebase (s : State) (r : Response) :
    (s.post r).timebase = s.timebase := rfl

/-! ## State.dropped -/

@[simp] theorem State.dropped_pending (s : State) :
    s.dropped.pending = s.pending := rfl
@[simp] theorem State.dropped_draws (s : State) :
    s.dropped.draws = s.draws := rfl
@[simp] theorem State.dropped_reply (s : State) :
    s.dropped.reply = s.reply := rfl
@[simp] theorem State.dropped_frame (s : State) :
    s.dropped.frame = s.frame := rfl
@[simp] theorem State.dropped_irqMask (s : State) :
    s.dropped.irqMask = s.irqMask := rfl
@[simp] theorem State.dropped_refillMark (s : State) :
    s.dropped.refillMark = s.refillMark := rfl
@[simp] theorem State.dropped_gateOpen (s : State) :
    s.dropped.gateOpen = s.gateOpen := rfl
@[simp] theorem State.dropped_commandQueue (s : State) :
    s.dropped.commandQueue = s.commandQueue := rfl
@[simp] theorem State.dropped_backup (s : State) :
    s.dropped.backup = s.backup := rfl
@[simp] theorem State.dropped_prioritySlot (s : State) :
    s.dropped.prioritySlot = s.prioritySlot := rfl
@[simp] theorem State.dropped_levels (s : State) :
    s.dropped.levels = s.levels := rfl
@[simp] theorem State.dropped_releaseSet (s : State) :
    s.dropped.releaseSet = s.releaseSet := rfl
@[simp] theorem State.dropped_commitSet (s : State) :
    s.dropped.commitSet = s.commitSet := rfl
@[simp] theorem State.dropped_expirySet (s : State) :
    s.dropped.expirySet = s.expirySet := rfl
@[simp] theorem State.dropped_engine (s : State) :
    s.dropped.engine = .idle := rfl
@[simp] theorem State.dropped_responses (s : State) :
    s.dropped.responses = s.responses := rfl
@[simp] theorem State.dropped_reserved (s : State) :
    s.dropped.reserved = s.reserved - 1 := rfl
@[simp] theorem State.dropped_aborts (s : State) :
    s.dropped.aborts = s.aborts := rfl
@[simp] theorem State.dropped_records (s : State) :
    s.dropped.records = s.records := rfl
@[simp] theorem State.dropped_keyIndex (s : State) :
    s.dropped.keyIndex = s.keyIndex := rfl
@[simp] theorem State.dropped_pool (s : State) :
    s.dropped.pool = s.pool := rfl
@[simp] theorem State.dropped_planes (s : State) :
    s.dropped.planes = s.planes := rfl
@[simp] theorem State.dropped_links (s : State) :
    s.dropped.links = s.links := rfl
@[simp] theorem State.dropped_lastGranted (s : State) :
    s.dropped.lastGranted = s.lastGranted := rfl
@[simp] theorem State.dropped_bursts (s : State) :
    s.dropped.bursts = s.bursts := rfl
@[simp] theorem State.dropped_issueNumber (s : State) :
    s.dropped.issueNumber = s.issueNumber := rfl
@[simp] theorem State.dropped_timer (s : State) :
    s.dropped.timer = s.timer := rfl
@[simp] theorem State.dropped_ackTimeout (s : State) :
    s.dropped.ackTimeout = s.ackTimeout := rfl
@[simp] theorem State.dropped_fsRefused (s : State) :
    s.dropped.fsRefused = s.fsRefused := rfl
@[simp] theorem State.dropped_fsTimeout (s : State) :
    s.dropped.fsTimeout = s.fsTimeout := rfl
@[simp] theorem State.dropped_fsAttention (s : State) :
    s.dropped.fsAttention = s.fsAttention := rfl
@[simp] theorem State.dropped_timebase (s : State) :
    s.dropped.timebase = s.timebase := rfl

/-! ## State.finish -/

@[simp] theorem State.finish_pending (s : State) (r : CommandRecord) (st : Status) (p : Payload) (h : Option Handle) :
    (s.finish r st p h).pending = s.pending := rfl
@[simp] theorem State.finish_draws (s : State) (r : CommandRecord) (st : Status) (p : Payload) (h : Option Handle) :
    (s.finish r st p h).draws = s.draws := rfl
@[simp] theorem State.finish_reply (s : State) (r : CommandRecord) (st : Status) (p : Payload) (h : Option Handle) :
    (s.finish r st p h).reply = s.reply := rfl
@[simp] theorem State.finish_frame (s : State) (r : CommandRecord) (st : Status) (p : Payload) (h : Option Handle) :
    (s.finish r st p h).frame = s.frame := rfl
@[simp] theorem State.finish_irqMask (s : State) (r : CommandRecord) (st : Status) (p : Payload) (h : Option Handle) :
    (s.finish r st p h).irqMask = s.irqMask := rfl
@[simp] theorem State.finish_refillMark (s : State) (r : CommandRecord) (st : Status) (p : Payload) (h : Option Handle) :
    (s.finish r st p h).refillMark = s.refillMark := rfl
@[simp] theorem State.finish_gateOpen (s : State) (r : CommandRecord) (st : Status) (p : Payload) (h : Option Handle) :
    (s.finish r st p h).gateOpen = s.gateOpen := rfl
@[simp] theorem State.finish_commandQueue (s : State) (r : CommandRecord) (st : Status) (p : Payload) (h : Option Handle) :
    (s.finish r st p h).commandQueue = s.commandQueue := rfl
@[simp] theorem State.finish_backup (s : State) (r : CommandRecord) (st : Status) (p : Payload) (h : Option Handle) :
    (s.finish r st p h).backup = s.backup := rfl
@[simp] theorem State.finish_prioritySlot (s : State) (r : CommandRecord) (st : Status) (p : Payload) (h : Option Handle) :
    (s.finish r st p h).prioritySlot = s.prioritySlot := rfl
@[simp] theorem State.finish_levels (s : State) (r : CommandRecord) (st : Status) (p : Payload) (h : Option Handle) :
    (s.finish r st p h).levels = s.levels := rfl
@[simp] theorem State.finish_releaseSet (s : State) (r : CommandRecord) (st : Status) (p : Payload) (h : Option Handle) :
    (s.finish r st p h).releaseSet = s.releaseSet := rfl
@[simp] theorem State.finish_commitSet (s : State) (r : CommandRecord) (st : Status) (p : Payload) (h : Option Handle) :
    (s.finish r st p h).commitSet = s.commitSet := rfl
@[simp] theorem State.finish_expirySet (s : State) (r : CommandRecord) (st : Status) (p : Payload) (h : Option Handle) :
    (s.finish r st p h).expirySet = s.expirySet := rfl
@[simp] theorem State.finish_engine (s : State) (r : CommandRecord) (st : Status) (p : Payload) (h : Option Handle) :
    (s.finish r st p h).engine = .idle := rfl
@[simp] theorem State.finish_responses (s : State) (r : CommandRecord) (st : Status) (p : Payload) (h : Option Handle) :
    (s.finish r st p h).responses = s.responses ++ [.result r.tag r.command.code st (r.command.namedHandle <|> h) p] := rfl
@[simp] theorem State.finish_reserved (s : State) (r : CommandRecord) (st : Status) (p : Payload) (h : Option Handle) :
    (s.finish r st p h).reserved = s.reserved - 1 := rfl
@[simp] theorem State.finish_aborts (s : State) (r : CommandRecord) (st : Status) (p : Payload) (h : Option Handle) :
    (s.finish r st p h).aborts = s.aborts := rfl
@[simp] theorem State.finish_records (s : State) (r : CommandRecord) (st : Status) (p : Payload) (h : Option Handle) :
    (s.finish r st p h).records = s.records := rfl
@[simp] theorem State.finish_keyIndex (s : State) (r : CommandRecord) (st : Status) (p : Payload) (h : Option Handle) :
    (s.finish r st p h).keyIndex = s.keyIndex := rfl
@[simp] theorem State.finish_pool (s : State) (r : CommandRecord) (st : Status) (p : Payload) (h : Option Handle) :
    (s.finish r st p h).pool = s.pool := rfl
@[simp] theorem State.finish_planes (s : State) (r : CommandRecord) (st : Status) (p : Payload) (h : Option Handle) :
    (s.finish r st p h).planes = s.planes := rfl
@[simp] theorem State.finish_links (s : State) (r : CommandRecord) (st : Status) (p : Payload) (h : Option Handle) :
    (s.finish r st p h).links = s.links := rfl
@[simp] theorem State.finish_lastGranted (s : State) (r : CommandRecord) (st : Status) (p : Payload) (h : Option Handle) :
    (s.finish r st p h).lastGranted = s.lastGranted := rfl
@[simp] theorem State.finish_bursts (s : State) (r : CommandRecord) (st : Status) (p : Payload) (h : Option Handle) :
    (s.finish r st p h).bursts = s.bursts := rfl
@[simp] theorem State.finish_issueNumber (s : State) (r : CommandRecord) (st : Status) (p : Payload) (h : Option Handle) :
    (s.finish r st p h).issueNumber = s.issueNumber := rfl
@[simp] theorem State.finish_timer (s : State) (r : CommandRecord) (st : Status) (p : Payload) (h : Option Handle) :
    (s.finish r st p h).timer = s.timer := rfl
@[simp] theorem State.finish_ackTimeout (s : State) (r : CommandRecord) (st : Status) (p : Payload) (h : Option Handle) :
    (s.finish r st p h).ackTimeout = s.ackTimeout := rfl
@[simp] theorem State.finish_fsRefused (s : State) (r : CommandRecord) (st : Status) (p : Payload) (h : Option Handle) :
    (s.finish r st p h).fsRefused = s.fsRefused := rfl
@[simp] theorem State.finish_fsTimeout (s : State) (r : CommandRecord) (st : Status) (p : Payload) (h : Option Handle) :
    (s.finish r st p h).fsTimeout = s.fsTimeout := rfl
@[simp] theorem State.finish_fsAttention (s : State) (r : CommandRecord) (st : Status) (p : Payload) (h : Option Handle) :
    (s.finish r st p h).fsAttention = s.fsAttention := rfl
@[simp] theorem State.finish_timebase (s : State) (r : CommandRecord) (st : Status) (p : Payload) (h : Option Handle) :
    (s.finish r st p h).timebase = s.timebase := rfl

/-! ## State.concluded -/

@[simp] theorem State.concluded_pending (s : State) (r : Response) :
    (s.concluded r).pending = s.pending := rfl
@[simp] theorem State.concluded_draws (s : State) (r : Response) :
    (s.concluded r).draws = s.draws := rfl
@[simp] theorem State.concluded_reply (s : State) (r : Response) :
    (s.concluded r).reply = s.reply := rfl
@[simp] theorem State.concluded_frame (s : State) (r : Response) :
    (s.concluded r).frame = s.frame := rfl
@[simp] theorem State.concluded_irqMask (s : State) (r : Response) :
    (s.concluded r).irqMask = s.irqMask := rfl
@[simp] theorem State.concluded_refillMark (s : State) (r : Response) :
    (s.concluded r).refillMark = s.refillMark := rfl
@[simp] theorem State.concluded_gateOpen (s : State) (r : Response) :
    (s.concluded r).gateOpen = s.gateOpen := rfl
@[simp] theorem State.concluded_commandQueue (s : State) (r : Response) :
    (s.concluded r).commandQueue = s.commandQueue := rfl
@[simp] theorem State.concluded_backup (s : State) (r : Response) :
    (s.concluded r).backup = s.backup := rfl
@[simp] theorem State.concluded_prioritySlot (s : State) (r : Response) :
    (s.concluded r).prioritySlot = s.prioritySlot := rfl
@[simp] theorem State.concluded_levels (s : State) (r : Response) :
    (s.concluded r).levels = s.levels := rfl
@[simp] theorem State.concluded_releaseSet (s : State) (r : Response) :
    (s.concluded r).releaseSet = s.releaseSet := rfl
@[simp] theorem State.concluded_commitSet (s : State) (r : Response) :
    (s.concluded r).commitSet = s.commitSet := rfl
@[simp] theorem State.concluded_expirySet (s : State) (r : Response) :
    (s.concluded r).expirySet = s.expirySet := rfl
@[simp] theorem State.concluded_engine (s : State) (r : Response) :
    (s.concluded r).engine = .idle := rfl
@[simp] theorem State.concluded_responses (s : State) (r : Response) :
    (s.concluded r).responses = s.responses ++ [r] := rfl
@[simp] theorem State.concluded_reserved (s : State) (r : Response) :
    (s.concluded r).reserved = s.reserved - 1 := rfl
@[simp] theorem State.concluded_aborts (s : State) (r : Response) :
    (s.concluded r).aborts = s.aborts := rfl
@[simp] theorem State.concluded_records (s : State) (r : Response) :
    (s.concluded r).records = s.records := rfl
@[simp] theorem State.concluded_keyIndex (s : State) (r : Response) :
    (s.concluded r).keyIndex = s.keyIndex := rfl
@[simp] theorem State.concluded_pool (s : State) (r : Response) :
    (s.concluded r).pool = s.pool := rfl
@[simp] theorem State.concluded_planes (s : State) (r : Response) :
    (s.concluded r).planes = s.planes := rfl
@[simp] theorem State.concluded_links (s : State) (r : Response) :
    (s.concluded r).links = s.links := rfl
@[simp] theorem State.concluded_lastGranted (s : State) (r : Response) :
    (s.concluded r).lastGranted = s.lastGranted := rfl
@[simp] theorem State.concluded_bursts (s : State) (r : Response) :
    (s.concluded r).bursts = s.bursts := rfl
@[simp] theorem State.concluded_issueNumber (s : State) (r : Response) :
    (s.concluded r).issueNumber = s.issueNumber := rfl
@[simp] theorem State.concluded_timer (s : State) (r : Response) :
    (s.concluded r).timer = s.timer := rfl
@[simp] theorem State.concluded_ackTimeout (s : State) (r : Response) :
    (s.concluded r).ackTimeout = s.ackTimeout := rfl
@[simp] theorem State.concluded_fsRefused (s : State) (r : Response) :
    (s.concluded r).fsRefused = s.fsRefused := rfl
@[simp] theorem State.concluded_fsTimeout (s : State) (r : Response) :
    (s.concluded r).fsTimeout = s.fsTimeout := rfl
@[simp] theorem State.concluded_fsAttention (s : State) (r : Response) :
    (s.concluded r).fsAttention = s.fsAttention := rfl
@[simp] theorem State.concluded_timebase (s : State) (r : Response) :
    (s.concluded r).timebase = s.timebase := rfl

/-! ## State.cancelScan -/

@[simp] theorem State.cancelScan_pending (s : State) (op : ScanOperation) :
    (s.cancelScan op).pending = s.pending := rfl
@[simp] theorem State.cancelScan_draws (s : State) (op : ScanOperation) :
    (s.cancelScan op).draws = s.draws := rfl
@[simp] theorem State.cancelScan_reply (s : State) (op : ScanOperation) :
    (s.cancelScan op).reply = s.reply := rfl
@[simp] theorem State.cancelScan_frame (s : State) (op : ScanOperation) :
    (s.cancelScan op).frame = s.frame := rfl
@[simp] theorem State.cancelScan_irqMask (s : State) (op : ScanOperation) :
    (s.cancelScan op).irqMask = s.irqMask := rfl
@[simp] theorem State.cancelScan_refillMark (s : State) (op : ScanOperation) :
    (s.cancelScan op).refillMark = s.refillMark := rfl
@[simp] theorem State.cancelScan_gateOpen (s : State) (op : ScanOperation) :
    (s.cancelScan op).gateOpen = s.gateOpen := rfl
@[simp] theorem State.cancelScan_commandQueue (s : State) (op : ScanOperation) :
    (s.cancelScan op).commandQueue = s.commandQueue := rfl
@[simp] theorem State.cancelScan_backup (s : State) (op : ScanOperation) :
    (s.cancelScan op).backup = some op.request := rfl
@[simp] theorem State.cancelScan_prioritySlot (s : State) (op : ScanOperation) :
    (s.cancelScan op).prioritySlot = s.prioritySlot := rfl
@[simp] theorem State.cancelScan_levels (s : State) (op : ScanOperation) :
    (s.cancelScan op).levels = s.levels := rfl
@[simp] theorem State.cancelScan_releaseSet (s : State) (op : ScanOperation) :
    (s.cancelScan op).releaseSet = s.releaseSet := rfl
@[simp] theorem State.cancelScan_commitSet (s : State) (op : ScanOperation) :
    (s.cancelScan op).commitSet = s.commitSet := rfl
@[simp] theorem State.cancelScan_expirySet (s : State) (op : ScanOperation) :
    (s.cancelScan op).expirySet = s.expirySet := rfl
@[simp] theorem State.cancelScan_engine (s : State) (op : ScanOperation) :
    (s.cancelScan op).engine = .idle := rfl
@[simp] theorem State.cancelScan_responses (s : State) (op : ScanOperation) :
    (s.cancelScan op).responses = s.responses := rfl
@[simp] theorem State.cancelScan_reserved (s : State) (op : ScanOperation) :
    (s.cancelScan op).reserved = s.reserved - 1 := rfl
@[simp] theorem State.cancelScan_aborts (s : State) (op : ScanOperation) :
    (s.cancelScan op).aborts = s.aborts := rfl
@[simp] theorem State.cancelScan_records (s : State) (op : ScanOperation) :
    (s.cancelScan op).records = s.records := rfl
@[simp] theorem State.cancelScan_keyIndex (s : State) (op : ScanOperation) :
    (s.cancelScan op).keyIndex = s.keyIndex := rfl
@[simp] theorem State.cancelScan_pool (s : State) (op : ScanOperation) :
    (s.cancelScan op).pool = s.pool := rfl
@[simp] theorem State.cancelScan_planes (s : State) (op : ScanOperation) :
    (s.cancelScan op).planes = s.planes := rfl
@[simp] theorem State.cancelScan_links (s : State) (op : ScanOperation) :
    (s.cancelScan op).links = s.links := rfl
@[simp] theorem State.cancelScan_lastGranted (s : State) (op : ScanOperation) :
    (s.cancelScan op).lastGranted = s.lastGranted := rfl
@[simp] theorem State.cancelScan_bursts (s : State) (op : ScanOperation) :
    (s.cancelScan op).bursts = s.bursts := rfl
@[simp] theorem State.cancelScan_issueNumber (s : State) (op : ScanOperation) :
    (s.cancelScan op).issueNumber = s.issueNumber := rfl
@[simp] theorem State.cancelScan_timer (s : State) (op : ScanOperation) :
    (s.cancelScan op).timer = s.timer := rfl
@[simp] theorem State.cancelScan_ackTimeout (s : State) (op : ScanOperation) :
    (s.cancelScan op).ackTimeout = s.ackTimeout := rfl
@[simp] theorem State.cancelScan_fsRefused (s : State) (op : ScanOperation) :
    (s.cancelScan op).fsRefused = s.fsRefused := rfl
@[simp] theorem State.cancelScan_fsTimeout (s : State) (op : ScanOperation) :
    (s.cancelScan op).fsTimeout = s.fsTimeout := rfl
@[simp] theorem State.cancelScan_fsAttention (s : State) (op : ScanOperation) :
    (s.cancelScan op).fsAttention = s.fsAttention := rfl
@[simp] theorem State.cancelScan_timebase (s : State) (op : ScanOperation) :
    (s.cancelScan op).timebase = s.timebase := rfl

/-! ## State.enterScan -/

@[simp] theorem State.enterScan_pending (s : State) (x : Source) (r : CommandRecord) (q : ScanPosition) :
    (s.enterScan x r q).pending = s.pending := rfl
@[simp] theorem State.enterScan_draws (s : State) (x : Source) (r : CommandRecord) (q : ScanPosition) :
    (s.enterScan x r q).draws = s.draws := rfl
@[simp] theorem State.enterScan_reply (s : State) (x : Source) (r : CommandRecord) (q : ScanPosition) :
    (s.enterScan x r q).reply = s.reply := rfl
@[simp] theorem State.enterScan_frame (s : State) (x : Source) (r : CommandRecord) (q : ScanPosition) :
    (s.enterScan x r q).frame = s.frame := rfl
@[simp] theorem State.enterScan_irqMask (s : State) (x : Source) (r : CommandRecord) (q : ScanPosition) :
    (s.enterScan x r q).irqMask = s.irqMask := rfl
@[simp] theorem State.enterScan_refillMark (s : State) (x : Source) (r : CommandRecord) (q : ScanPosition) :
    (s.enterScan x r q).refillMark = s.refillMark := rfl
@[simp] theorem State.enterScan_gateOpen (s : State) (x : Source) (r : CommandRecord) (q : ScanPosition) :
    (s.enterScan x r q).gateOpen = s.gateOpen := rfl
@[simp] theorem State.enterScan_commandQueue (s : State) (x : Source) (r : CommandRecord) (q : ScanPosition) :
    (s.enterScan x r q).commandQueue = s.commandQueue := rfl
@[simp] theorem State.enterScan_backup (s : State) (x : Source) (r : CommandRecord) (q : ScanPosition) :
    (s.enterScan x r q).backup = s.backup := rfl
@[simp] theorem State.enterScan_prioritySlot (s : State) (x : Source) (r : CommandRecord) (q : ScanPosition) :
    (s.enterScan x r q).prioritySlot = s.prioritySlot := rfl
@[simp] theorem State.enterScan_levels (s : State) (x : Source) (r : CommandRecord) (q : ScanPosition) :
    (s.enterScan x r q).levels = s.levels := rfl
@[simp] theorem State.enterScan_releaseSet (s : State) (x : Source) (r : CommandRecord) (q : ScanPosition) :
    (s.enterScan x r q).releaseSet = s.releaseSet := rfl
@[simp] theorem State.enterScan_commitSet (s : State) (x : Source) (r : CommandRecord) (q : ScanPosition) :
    (s.enterScan x r q).commitSet = s.commitSet := rfl
@[simp] theorem State.enterScan_expirySet (s : State) (x : Source) (r : CommandRecord) (q : ScanPosition) :
    (s.enterScan x r q).expirySet = s.expirySet := rfl
@[simp] theorem State.enterScan_engine (s : State) (x : Source) (r : CommandRecord) (q : ScanPosition) :
    (s.enterScan x r q).engine = .scan { source := x, request := r, position := q } := rfl
@[simp] theorem State.enterScan_responses (s : State) (x : Source) (r : CommandRecord) (q : ScanPosition) :
    (s.enterScan x r q).responses = s.responses := rfl
@[simp] theorem State.enterScan_reserved (s : State) (x : Source) (r : CommandRecord) (q : ScanPosition) :
    (s.enterScan x r q).reserved = s.reserved := rfl
@[simp] theorem State.enterScan_aborts (s : State) (x : Source) (r : CommandRecord) (q : ScanPosition) :
    (s.enterScan x r q).aborts = s.aborts := rfl
@[simp] theorem State.enterScan_records (s : State) (x : Source) (r : CommandRecord) (q : ScanPosition) :
    (s.enterScan x r q).records = s.records := rfl
@[simp] theorem State.enterScan_keyIndex (s : State) (x : Source) (r : CommandRecord) (q : ScanPosition) :
    (s.enterScan x r q).keyIndex = s.keyIndex := rfl
@[simp] theorem State.enterScan_pool (s : State) (x : Source) (r : CommandRecord) (q : ScanPosition) :
    (s.enterScan x r q).pool = s.pool := rfl
@[simp] theorem State.enterScan_planes (s : State) (x : Source) (r : CommandRecord) (q : ScanPosition) :
    (s.enterScan x r q).planes = s.planes := rfl
@[simp] theorem State.enterScan_links (s : State) (x : Source) (r : CommandRecord) (q : ScanPosition) :
    (s.enterScan x r q).links = s.links := rfl
@[simp] theorem State.enterScan_lastGranted (s : State) (x : Source) (r : CommandRecord) (q : ScanPosition) :
    (s.enterScan x r q).lastGranted = s.lastGranted := rfl
@[simp] theorem State.enterScan_bursts (s : State) (x : Source) (r : CommandRecord) (q : ScanPosition) :
    (s.enterScan x r q).bursts = s.bursts := rfl
@[simp] theorem State.enterScan_issueNumber (s : State) (x : Source) (r : CommandRecord) (q : ScanPosition) :
    (s.enterScan x r q).issueNumber = s.issueNumber := rfl
@[simp] theorem State.enterScan_timer (s : State) (x : Source) (r : CommandRecord) (q : ScanPosition) :
    (s.enterScan x r q).timer = s.timer := rfl
@[simp] theorem State.enterScan_ackTimeout (s : State) (x : Source) (r : CommandRecord) (q : ScanPosition) :
    (s.enterScan x r q).ackTimeout = s.ackTimeout := rfl
@[simp] theorem State.enterScan_fsRefused (s : State) (x : Source) (r : CommandRecord) (q : ScanPosition) :
    (s.enterScan x r q).fsRefused = s.fsRefused := rfl
@[simp] theorem State.enterScan_fsTimeout (s : State) (x : Source) (r : CommandRecord) (q : ScanPosition) :
    (s.enterScan x r q).fsTimeout = s.fsTimeout := rfl
@[simp] theorem State.enterScan_fsAttention (s : State) (x : Source) (r : CommandRecord) (q : ScanPosition) :
    (s.enterScan x r q).fsAttention = s.fsAttention := rfl
@[simp] theorem State.enterScan_timebase (s : State) (x : Source) (r : CommandRecord) (q : ScanPosition) :
    (s.enterScan x r q).timebase = s.timebase := rfl

/-! ## State.allocate -/

@[simp] theorem State.allocate_pending (s : State) (i : RecordNo) (x : SlotLetter) (ds : List DestDesc) :
    (s.allocate i x ds).pending = s.pending := rfl
@[simp] theorem State.allocate_draws (s : State) (i : RecordNo) (x : SlotLetter) (ds : List DestDesc) :
    (s.allocate i x ds).draws = s.draws := rfl
@[simp] theorem State.allocate_reply (s : State) (i : RecordNo) (x : SlotLetter) (ds : List DestDesc) :
    (s.allocate i x ds).reply = s.reply := rfl
@[simp] theorem State.allocate_frame (s : State) (i : RecordNo) (x : SlotLetter) (ds : List DestDesc) :
    (s.allocate i x ds).frame = s.frame := rfl
@[simp] theorem State.allocate_irqMask (s : State) (i : RecordNo) (x : SlotLetter) (ds : List DestDesc) :
    (s.allocate i x ds).irqMask = s.irqMask := rfl
@[simp] theorem State.allocate_refillMark (s : State) (i : RecordNo) (x : SlotLetter) (ds : List DestDesc) :
    (s.allocate i x ds).refillMark = s.refillMark := rfl
@[simp] theorem State.allocate_gateOpen (s : State) (i : RecordNo) (x : SlotLetter) (ds : List DestDesc) :
    (s.allocate i x ds).gateOpen = s.gateOpen := rfl
@[simp] theorem State.allocate_commandQueue (s : State) (i : RecordNo) (x : SlotLetter) (ds : List DestDesc) :
    (s.allocate i x ds).commandQueue = s.commandQueue := rfl
@[simp] theorem State.allocate_backup (s : State) (i : RecordNo) (x : SlotLetter) (ds : List DestDesc) :
    (s.allocate i x ds).backup = s.backup := rfl
@[simp] theorem State.allocate_prioritySlot (s : State) (i : RecordNo) (x : SlotLetter) (ds : List DestDesc) :
    (s.allocate i x ds).prioritySlot = s.prioritySlot := rfl
@[simp] theorem State.allocate_levels (s : State) (i : RecordNo) (x : SlotLetter) (ds : List DestDesc) :
    (s.allocate i x ds).levels = s.levels := rfl
@[simp] theorem State.allocate_releaseSet (s : State) (i : RecordNo) (x : SlotLetter) (ds : List DestDesc) :
    (s.allocate i x ds).releaseSet = s.releaseSet := rfl
@[simp] theorem State.allocate_commitSet (s : State) (i : RecordNo) (x : SlotLetter) (ds : List DestDesc) :
    (s.allocate i x ds).commitSet = s.commitSet := rfl
@[simp] theorem State.allocate_expirySet (s : State) (i : RecordNo) (x : SlotLetter) (ds : List DestDesc) :
    (s.allocate i x ds).expirySet = s.expirySet := rfl
@[simp] theorem State.allocate_engine (s : State) (i : RecordNo) (x : SlotLetter) (ds : List DestDesc) :
    (s.allocate i x ds).engine = s.engine := rfl
@[simp] theorem State.allocate_responses (s : State) (i : RecordNo) (x : SlotLetter) (ds : List DestDesc) :
    (s.allocate i x ds).responses = s.responses := rfl
@[simp] theorem State.allocate_reserved (s : State) (i : RecordNo) (x : SlotLetter) (ds : List DestDesc) :
    (s.allocate i x ds).reserved = s.reserved := rfl
@[simp] theorem State.allocate_aborts (s : State) (i : RecordNo) (x : SlotLetter) (ds : List DestDesc) :
    (s.allocate i x ds).aborts = s.aborts := rfl
@[simp] theorem State.allocate_records (s : State) (i : RecordNo) (x : SlotLetter) (ds : List DestDesc) :
    (s.allocate i x ds).records = s.records := rfl
@[simp] theorem State.allocate_keyIndex (s : State) (i : RecordNo) (x : SlotLetter) (ds : List DestDesc) :
    (s.allocate i x ds).keyIndex = s.keyIndex := rfl
@[simp] theorem State.allocate_pool (s : State) (i : RecordNo) (x : SlotLetter) (ds : List DestDesc) :
    (s.allocate i x ds).pool = fillPool s.pool i x (s.freeEntries.zip ds) := rfl
@[simp] theorem State.allocate_planes (s : State) (i : RecordNo) (x : SlotLetter) (ds : List DestDesc) :
    (s.allocate i x ds).planes = s.planes := rfl
@[simp] theorem State.allocate_links (s : State) (i : RecordNo) (x : SlotLetter) (ds : List DestDesc) :
    (s.allocate i x ds).links = s.links := rfl
@[simp] theorem State.allocate_lastGranted (s : State) (i : RecordNo) (x : SlotLetter) (ds : List DestDesc) :
    (s.allocate i x ds).lastGranted = s.lastGranted := rfl
@[simp] theorem State.allocate_bursts (s : State) (i : RecordNo) (x : SlotLetter) (ds : List DestDesc) :
    (s.allocate i x ds).bursts = s.bursts := rfl
@[simp] theorem State.allocate_issueNumber (s : State) (i : RecordNo) (x : SlotLetter) (ds : List DestDesc) :
    (s.allocate i x ds).issueNumber = s.issueNumber := rfl
@[simp] theorem State.allocate_timer (s : State) (i : RecordNo) (x : SlotLetter) (ds : List DestDesc) :
    (s.allocate i x ds).timer = s.timer := rfl
@[simp] theorem State.allocate_ackTimeout (s : State) (i : RecordNo) (x : SlotLetter) (ds : List DestDesc) :
    (s.allocate i x ds).ackTimeout = s.ackTimeout := rfl
@[simp] theorem State.allocate_fsRefused (s : State) (i : RecordNo) (x : SlotLetter) (ds : List DestDesc) :
    (s.allocate i x ds).fsRefused = s.fsRefused := rfl
@[simp] theorem State.allocate_fsTimeout (s : State) (i : RecordNo) (x : SlotLetter) (ds : List DestDesc) :
    (s.allocate i x ds).fsTimeout = s.fsTimeout := rfl
@[simp] theorem State.allocate_fsAttention (s : State) (i : RecordNo) (x : SlotLetter) (ds : List DestDesc) :
    (s.allocate i x ds).fsAttention = s.fsAttention := rfl
@[simp] theorem State.allocate_timebase (s : State) (i : RecordNo) (x : SlotLetter) (ds : List DestDesc) :
    (s.allocate i x ds).timebase = s.timebase := rfl

/-! ## State.issue -/

@[simp] theorem State.issue_pending (s : State) :
    s.issue.pending = s.pending := rfl
@[simp] theorem State.issue_draws (s : State) :
    s.issue.draws = s.draws := rfl
@[simp] theorem State.issue_reply (s : State) :
    s.issue.reply = s.reply := rfl
@[simp] theorem State.issue_frame (s : State) :
    s.issue.frame = s.frame := rfl
@[simp] theorem State.issue_irqMask (s : State) :
    s.issue.irqMask = s.irqMask := rfl
@[simp] theorem State.issue_refillMark (s : State) :
    s.issue.refillMark = s.refillMark := rfl
@[simp] theorem State.issue_gateOpen (s : State) :
    s.issue.gateOpen = s.gateOpen := rfl
@[simp] theorem State.issue_commandQueue (s : State) :
    s.issue.commandQueue = s.commandQueue := rfl
@[simp] theorem State.issue_backup (s : State) :
    s.issue.backup = s.backup := rfl
@[simp] theorem State.issue_prioritySlot (s : State) :
    s.issue.prioritySlot = s.prioritySlot := rfl
@[simp] theorem State.issue_levels (s : State) :
    s.issue.levels = s.levels := rfl
@[simp] theorem State.issue_releaseSet (s : State) :
    s.issue.releaseSet = s.releaseSet := rfl
@[simp] theorem State.issue_commitSet (s : State) :
    s.issue.commitSet = s.commitSet := rfl
@[simp] theorem State.issue_expirySet (s : State) :
    s.issue.expirySet = s.expirySet := rfl
@[simp] theorem State.issue_engine (s : State) :
    s.issue.engine = s.engine := rfl
@[simp] theorem State.issue_responses (s : State) :
    s.issue.responses = s.responses := rfl
@[simp] theorem State.issue_reserved (s : State) :
    s.issue.reserved = s.reserved := rfl
@[simp] theorem State.issue_aborts (s : State) :
    s.issue.aborts = s.aborts := rfl
@[simp] theorem State.issue_records (s : State) :
    s.issue.records = s.records := rfl
@[simp] theorem State.issue_keyIndex (s : State) :
    s.issue.keyIndex = s.keyIndex := rfl
@[simp] theorem State.issue_pool (s : State) :
    s.issue.pool = s.pool := rfl
@[simp] theorem State.issue_planes (s : State) :
    s.issue.planes = s.planes := rfl
@[simp] theorem State.issue_links (s : State) :
    s.issue.links = s.links := rfl
@[simp] theorem State.issue_lastGranted (s : State) :
    s.issue.lastGranted = s.lastGranted := rfl
@[simp] theorem State.issue_bursts (s : State) :
    s.issue.bursts = s.bursts := rfl
@[simp] theorem State.issue_issueNumber (s : State) :
    s.issue.issueNumber = s.issueNumber + 1 := rfl
@[simp] theorem State.issue_timer (s : State) :
    s.issue.timer = some s.ackTimeout := rfl
@[simp] theorem State.issue_ackTimeout (s : State) :
    s.issue.ackTimeout = s.ackTimeout := rfl
@[simp] theorem State.issue_fsRefused (s : State) :
    s.issue.fsRefused = s.fsRefused := rfl
@[simp] theorem State.issue_fsTimeout (s : State) :
    s.issue.fsTimeout = s.fsTimeout := rfl
@[simp] theorem State.issue_fsAttention (s : State) :
    s.issue.fsAttention = s.fsAttention := rfl
@[simp] theorem State.issue_timebase (s : State) :
    s.issue.timebase = s.timebase := rfl

end Sys2Proof.Machine
end

