-- ==== Sys2Proof/Laws/Tables.lean ====
section
/-! SUPPORT. Reading a table after an update of it: records, contexts, slots, keys and indices in range. -/

namespace Sys2Proof.Machine

/-! ## Tables -/

/-- The later of two writes of one place stands. -/
@[simp] theorem put_put_same {α : Type} {n : Nat} (v : Vector α n) (i : Fin n) (x y : α) :
    put (put v i x) i y = put v i y := by
  apply look_ext
  intro j
  by_cases h : i = j <;> simp [look_put, h]

/-- Writing what a place holds changes nothing. -/
@[simp] theorem put_look_same {α : Type} {n : Nat} (v : Vector α n) (i : Fin n) : put v i (look v i) = v := by
  apply look_ext
  intro j
  by_cases h : i = j
  · subst h; simp
  · simp [look_put, h]

/-- Writing what a place is known to hold changes nothing. -/
theorem put_eq_self {α : Type} {n : Nat} {v : Vector α n} {i : Fin n} {x : α} (h : look v i = x) :
    put v i x = v := by rw [← h, put_look_same]

/-! ## Records -/

/-- The fields of a record after the fields of a record were written. -/
theorem State.placement?_setPlacement (s : State) (i j : RecordNo) (p : Placement) :
    (s.setPlacement i p).placement? j = if i = j then some p else s.placement? j := by
  unfold State.placement?
  simp only [State.setPlacement_records, look_put]
  split <;> simp

@[simp] theorem State.placement?_setPlacement_same (s : State) (i : RecordNo) (p : Placement) :
    (s.setPlacement i p).placement? i = some p := by simp [State.placement?_setPlacement]

/-- Writing the fields of a record keeps every generation (R8). -/
theorem State.generation_setPlacement (s : State) (i j : RecordNo) (p : Placement) :
    (look (s.setPlacement i p).records j).generation = (look s.records j).generation := by
  simp only [State.setPlacement_records, look_put]
  split
  · rename_i h; subst h; rfl
  · rfl

@[simp] theorem State.handleOf_setPlacement (s : State) (i j : RecordNo) (p : Placement) :
    (s.setPlacement i p).handleOf j = s.handleOf j := by
  unfold State.handleOf
  rw [State.generation_setPlacement]

/-- States with the same table have the same records. -/
theorem State.placement?_congr {s t : State} (h : t.records = s.records) (i : RecordNo) :
    t.placement? i = s.placement? i := by unfold State.placement?; rw [h]

/-! ## Contexts -/

/-- A frame context after a frame context was written. -/
theorem State.context?_setContext (s : State) (l m : LinkNo) (c d : Channel) (f : Option Frame) :
    (s.setContext l c f).context? m d = if l = m ∧ c = d then f else s.context? m d := by
  unfold State.context?
  simp only [State.setContext_links, look_put]
  by_cases h : l = m
  · subst h
    simp [Link.withContext, look_put]
  · simp [h]

/-- States with the same receivers have the same contexts. -/
theorem State.context?_congr {s t : State} (h : t.links = s.links) (l : LinkNo) (c : Channel) :
    t.context? l c = s.context? l c := by unfold State.context?; rw [h]

@[simp] theorem State.context?_setPlacement (s : State) (i : RecordNo) (p : Placement) (l : LinkNo) (c : Channel) :
    (s.setPlacement i p).context? l c = s.context? l c := rfl

@[simp] theorem State.placement?_setContext (s : State) (l : LinkNo) (c : Channel) (f : Option Frame) (i : RecordNo) :
    (s.setContext l c f).placement? i = s.placement? i := rfl

@[simp] theorem State.placement?_setLink (s : State) (l : LinkNo) (k : Link) (i : RecordNo) :
    (s.setLink l k).placement? i = s.placement? i := rfl

@[simp] theorem State.placement?_countLink (s : State) (l : LinkNo) (c : LinkCounter) (i : RecordNo) :
    (s.countLink l c).placement? i = s.placement? i := rfl

/-- Counting a fault leaves every context. -/
@[simp] theorem State.context?_countLink (s : State) (l m : LinkNo) (n : LinkCounter) (c : Channel) :
    (s.countLink l n).context? m c = s.context? m c := by
  unfold State.context?
  simp only [State.countLink_links, look_put]
  split
  · rename_i h; subst h; rfl
  · rfl

/-! ## Slots -/

@[simp] theorem Placement.slot_withSlot_same (p : Placement) (x : SlotLetter) (v : Option Slot) :
    (p.withSlot x v).slot x = v := by cases x <;> rfl

@[simp] theorem Placement.slot_withSlot_other (p : Placement) (x : SlotLetter) (v : Option Slot) :
    (p.withSlot x v).slot x.other = p.slot x.other := by cases x <;> rfl

@[simp] theorem Placement.withSlot_key (p : Placement) (x : SlotLetter) (v : Option Slot) :
    (p.withSlot x v).key = p.key := by cases x <;> rfl

@[simp] theorem Placement.withSlot_drain (p : Placement) (x : SlotLetter) (v : Option Slot) :
    (p.withSlot x v).drain = p.drain := by cases x <;> rfl

@[simp] theorem Placement.withSlot_claim (p : Placement) (x : SlotLetter) (v : Option Slot) :
    (p.withSlot x v).claim = p.claim := by cases x <;> rfl

@[simp] theorem Placement.withSlot_counters (p : Placement) (x : SlotLetter) (v : Option Slot) :
    (p.withSlot x v).counters = p.counters := by cases x <;> rfl

/-! ## Keys and ranges -/

/-- Two keys with one place are one key (R23). -/
theorem Key.place_injective {k k' : Key} (h : k.place = k'.place) : k = k' := by
  have hv : k.link.val * 16 + k.channel.val = k'.link.val * 16 + k'.channel.val := congrArg Fin.val h
  have h1 := k.channel.isLt
  have h2 := k'.channel.isLt
  cases k; cases k'
  simp only [Key.mk.injEq, Fin.ext_iff] at *
  omega

/-- A byte in range is read as the index it holds. -/
theorem inRange?_eq_some {n : Nat} {b : Byte} {i : Fin n} : inRange? n b = some i ↔ i.val = b.toNat := by
  unfold inRange?
  constructor
  · intro h
    split at h
    · cases h; rfl
    · cases h
  · intro h
    have hb : b.toNat < n := h ▸ i.isLt
    simp [hb, Fin.ext_iff, h]

/-- A byte out of range is no index. -/
theorem inRange?_eq_none {n : Nat} {b : Byte} : inRange? n b = none ↔ n ≤ b.toNat := by
  unfold inRange?
  split <;> simp_all

/-! ## The handle check (R9) -/

/-- A handle is stale exactly when its index is above 63, or its record is FREE or of another generation. -/
theorem State.checkHandle_stale (s : State) (h : Handle) : s.checkHandle h = .stale ↔ s.Stale h := by
  unfold State.checkHandle State.Stale Handle.record?
  cases hr : inRange? 64 h.index with
  | none =>
    rw [inRange?_eq_none] at hr
    refine ⟨fun _ i hi => ?_, fun _ => rfl⟩
    have := i.isLt
    omega
  | some i =>
    rw [inRange?_eq_some] at hr
    have only : ∀ j : RecordNo, j.val = h.index.toNat → j = i := fun j hj => Fin.ext (by omega)
    cases hp : s.placement? i with
    | none =>
      refine ⟨fun _ j hj => .inl (by rw [only j hj, hp]), fun _ => by simp only [hp]⟩
    | some p =>
      simp only [hp]
      by_cases hg : (look s.records i).generation = h.generation
      · rw [if_neg (by simp [hg])]
        constructor
        · intro hc
          split at hc <;> cases hc
        · intro hall
          rcases hall i hr with h1 | h1
          · rw [hp] at h1; cases h1
          · exact absurd hg h1
      · rw [if_pos hg]
        exact ⟨fun _ j hj => .inr (by rw [only j hj]; exact hg), fun _ => rfl⟩

/-- A handle that names a record checks as that record, LIVE or DRAINING. -/
theorem State.checkHandle_names {s : State} {h : Handle} {i : RecordNo} {p : Placement} (hn : s.Names h i p) :
    s.checkHandle h = if p.drain.isSome then .draining i p else .live i p := by
  obtain ⟨hi, hp, hg⟩ := hn
  have hr : inRange? 64 h.index = some i := inRange?_eq_some.mpr hi
  simp [State.checkHandle, Handle.record?, hr, hp, hg]

/-- A stale handle is refused with STALE_HANDLE (R9). -/
theorem State.checkLive_stale {s : State} {h : Handle} (hs : s.Stale h) :
    s.checkLive h = .inl (.staleHandle, .empty) := by
  simp [State.checkLive, (State.checkHandle_stale s h).mpr hs]

/-- The handle of a DRAINING record is refused with NOT_LIVE (R9). -/
theorem State.checkLive_draining {s : State} {h : Handle} {i : RecordNo} {p : Placement} (hn : s.Names h i p)
    (hd : p.drain ≠ none) : s.checkLive h = .inl (.notLive, .empty) := by
  simp [State.checkLive, State.checkHandle_names hn, Option.isSome_iff_ne_none.mpr hd]

/-- The handle of a LIVE record passes (R9). -/
theorem State.checkLive_live {s : State} {h : Handle} {i : RecordNo} {p : Placement} (hn : s.Names h i p)
    (hd : p.drain = none) : s.checkLive h = .inr (i, p) := by
  simp [State.checkLive, State.checkHandle_names hn, hd]

end Sys2Proof.Machine
end

