-- ==== Sys2Proof/Laws/Start.lean ====
section
/-! SUPPORT. The arbiter and the start of an operation, once: when a start is taken, and what `begun`,
`startHost` and `startInternal` do. -/

namespace Sys2Proof.Machine

/-! ## The arbiter (R69, R70) -/

/-- A source that is left out of the comparison, or is beaten in it: `x` with `q` wins over `y`. -/
def State.Beats (s : State) (x y : Source) : Prop :=
  s.level x < s.level y ∨ (s.level x = s.level y ∧ x.number < y.number)

/-- The result of comparing the sources so far: the offer that beats every other one, none when none offers. -/
def State.WinnerAmong (s : State) (xs : List Source) (best : Option (Source × Request)) : Prop :=
  match best with
  | none => ∀ y ∈ xs, s.offer y = none
  | some (x, q) => x ∈ xs ∧ s.offer x = some q ∧ ∀ y ∈ xs, s.offer y ≠ none → y ≠ x → s.Beats x y

/-- One comparison, with a source of a higher number than those before it. -/
theorem State.winnerAmong_better {s : State} {xs : List Source} {best : Option (Source × Request)} {y : Source}
    (h : s.WinnerAmong xs best) (hy : ∀ x ∈ xs, x.number < y.number) :
    s.WinnerAmong (xs ++ [y]) (s.better best y) := by
  unfold State.better
  cases hq : s.offer y with
  | none =>
    cases best with
    | none =>
      intro z hz
      rcases List.mem_append.mp hz with h1 | h1
      · exact h z h1
      · simp at h1; subst h1; exact hq
    | some b =>
      obtain ⟨x, q⟩ := b
      obtain ⟨h1, h2, h3⟩ := h
      refine ⟨List.mem_append.mpr (.inl h1), h2, ?_⟩
      intro z hz hzo hzx
      rcases List.mem_append.mp hz with h4 | h4
      · exact h3 z h4 hzo hzx
      · simp at h4; subst h4; exact absurd hq hzo
  | some q =>
    cases best with
    | none =>
      refine ⟨by simp, hq, ?_⟩
      intro z hz hzo hzx
      rcases List.mem_append.mp hz with h4 | h4
      · exact absurd (h z h4) hzo
      · simp at h4; exact absurd h4 hzx
    | some b =>
      obtain ⟨x, r⟩ := b
      obtain ⟨h1, h2, h3⟩ := h
      have hxy := hy x h1
      dsimp only
      by_cases hl : s.level y < s.level x
      · rw [if_pos hl]
        refine ⟨by simp, hq, ?_⟩
        intro z hz hzo hzx
        rcases List.mem_append.mp hz with h4 | h4
        · by_cases hzx' : z = x
          · subst hzx'; exact .inl hl
          · rcases h3 z h4 hzo hzx' with h5 | h5
            · exact .inl (by omega)
            · exact .inl (by omega)
        · simp at h4; exact absurd h4 hzx
      · rw [if_neg hl]
        refine ⟨List.mem_append.mpr (.inl h1), h2, ?_⟩
        intro z hz hzo hzx
        rcases List.mem_append.mp hz with h4 | h4
        · exact h3 z h4 hzo hzx
        · simp at h4
          subst h4
          rcases Nat.lt_or_ge (s.level x) (s.level z) with h5 | h5
          · exact .inl h5
          · exact .inr ⟨by omega, hxy⟩

/-- The winner is the offer of the lowest level number, and then of the lowest source number (R69). -/
theorem State.winnerAmong_winner (s : State) : s.WinnerAmong Source.all s.winner := by
  have h0 : s.WinnerAmong [] none := by intro y hy; cases hy
  have h1 := State.winnerAmong_better (y := .prioritySlot) h0 (by decide)
  have h2 := State.winnerAmong_better (y := .releaseSet) h1 (by decide)
  have h3 := State.winnerAmong_better (y := .commitSet) h2 (by decide)
  have h4 := State.winnerAmong_better (y := .expirySet) h3 (by decide)
  exact State.winnerAmong_better (y := .commandQueue) h4 (by decide)

theorem Source.mem_all (x : Source) : x ∈ Source.all := by cases x <;> decide

/-- The arbiter starts `q` of source `x` exactly when R69 and R70 say so. -/
theorem State.arbitrate_eq_some (s : State) (x : Source) (q : Request) :
    s.arbitrate = some (x, q) ↔ s.Starts x q := by
  have hfree : (0 < s.responseFree) ↔ s.responses.length + s.reserved < 32 := by
    unfold State.responseFree; omega
  have hidle : s.engine.isIdle = true ↔ s.engine = .idle := by cases s.engine <;> simp [Engine.isIdle]
  have hw := s.winnerAmong_winner
  unfold State.arbitrate State.Starts
  constructor
  · intro h
    split at h
    · rename_i hc
      simp only [Bool.and_eq_true, decide_eq_true_eq] at hc
      rw [h] at hw
      refine ⟨hidle.mp hc.1, hfree.mp hc.2, hw.2.1, ?_⟩
      intro y r hy hyx
      exact hw.2.2 y (Source.mem_all y) (by simp [hy]) hyx
    · cases h
  · rintro ⟨hi, hr, ho, hb⟩
    rw [if_pos (by simp [hidle.mpr hi, hfree.mpr hr])]
    cases hwin : s.winner with
    | none =>
      rw [hwin] at hw
      have := hw x (Source.mem_all x)
      rw [ho] at this; cases this
    | some b =>
      obtain ⟨y, r⟩ := b
      rw [hwin] at hw
      obtain ⟨-, hy, hbeats⟩ := hw
      by_cases hyx : y = x
      · subst hyx
        rw [ho] at hy; cases hy; rfl
      · have h1 := hb y r hy hyx
        have h2 := hbeats x (Source.mem_all x) (by simp [ho]) (Ne.symm hyx)
        unfold State.Beats at h2
        omega

/-- No start is taken while the engine is not IDLE or the Response Queue has no free entry (R70, R71). -/
theorem State.arbitrate_eq_none {s : State} (h : s.engine ≠ .idle ∨ 32 ≤ s.responses.length + s.reserved) :
    s.arbitrate = none := by
  cases ha : s.arbitrate with
  | none => rfl
  | some b =>
    have := (s.arbitrate_eq_some b.1 b.2).mp ha
    rcases h with h | h
    · exact absurd this.1 h
    · have := this.2.1; omega

/-! ## Starts -/

/-- The start of a host command runs when the arbiter takes it. -/
theorem State.startHost_starts {α : Type} {s : State} {x : Source} {r : CommandRecord} {a : α}
    (pick : Command → Option α) (run : Source → CommandRecord → α → State → State)
    (h : s.Starts x (.command r)) (hp : pick r.command = some a) :
    s.startHost pick run = run x r a (s.begun x (.command r)) := by
  unfold State.startHost
  rw [(s.arbitrate_eq_some x (.command r)).mpr h]
  simp [hp]

/-- Where the arbiter takes no start, a start command changes nothing (R70). -/
theorem State.startHost_none {α : Type} {s : State} (pick : Command → Option α)
    (run : Source → CommandRecord → α → State → State) (h : s.arbitrate = none) : s.startHost pick run = s := by
  unfold State.startHost; rw [h]

/-- Everything a start of a host command can do: nothing, or the run of a start that the arbiter takes. -/
theorem State.startHost_cases {α : Type} (s : State) (pick : Command → Option α)
    (run : Source → CommandRecord → α → State → State) :
    s.startHost pick run = s ∨
      ∃ x r a, s.Starts x (.command r) ∧ pick r.command = some a ∧
        s.startHost pick run = run x r a (s.begun x (.command r)) := by
  unfold State.startHost
  cases h : s.arbitrate with
  | none => exact .inl rfl
  | some b =>
    obtain ⟨x, q⟩ := b
    cases q with
    | internal i => exact .inl rfl
    | command r =>
      cases hp : pick r.command with
      | none => left; simp [hp]
      | some a =>
        right
        exact ⟨x, r, a, (s.arbitrate_eq_some _ _).mp h, hp, by simp [hp]⟩

/-- The start of an internal operation runs when the arbiter takes it. -/
theorem State.startInternal_starts {s : State} {x : Source} {i : RecordNo} (run : RecordNo → State → State)
    (h : s.Starts x (.internal i)) : s.startInternal x run = run i (s.begun x (.internal i)) := by
  unfold State.startInternal
  rw [(s.arbitrate_eq_some x (.internal i)).mpr h]
  simp

/-- Where the arbiter takes no start, an internal start changes nothing (R70). -/
theorem State.startInternal_none {s : State} (x : Source) (run : RecordNo → State → State)
    (h : s.arbitrate = none) : s.startInternal x run = s := by
  unfold State.startInternal; rw [h]

/-- Everything an internal start can do: nothing, or the run of a start that the arbiter takes. -/
theorem State.startInternal_cases (s : State) (x : Source) (run : RecordNo → State → State) :
    s.startInternal x run = s ∨
      ∃ i, s.Starts x (.internal i) ∧ s.startInternal x run = run i (s.begun x (.internal i)) := by
  unfold State.startInternal
  cases h : s.arbitrate with
  | none => exact .inl rfl
  | some b =>
    obtain ⟨y, q⟩ := b
    cases q with
    | command r => exact .inl rfl
    | internal i =>
      by_cases hy : y = x
      · subst hy
        right
        exact ⟨i, (s.arbitrate_eq_some _ _).mp h, by simp⟩
      · left; simp [hy]

end Sys2Proof.Machine
end

