-- ==== Sys2Proof/Laws/Frames.lean ====
section
/-! SUPPORT. What the shared operations leave alone: one relation for the data path, one for a departure and the
fence it may end, and one lemma for each operation that says which of them it keeps. -/

namespace Sys2Proof.Machine

/-! ## The two relations -/

/-- `t` differs from `s` at most in what the data path writes: records, two pending sets, the travelling abort
requests, the link receivers, the last granted link, and the Burst Queue with its issue number and timer. -/
def State.OffFrames (s t : State) : Prop :=
  t = { s with
    records := t.records, commitSet := t.commitSet, releaseSet := t.releaseSet, aborts := t.aborts,
    links := t.links, lastGranted := t.lastGranted, bursts := t.bursts, issueNumber := t.issueNumber, timer := t.timer }

/-- `t` differs from `s` at most in what a departure writes: the Burst Queue and the port, what the completion of a
fence writes, and what the data path writes at the grants that follow. -/
def State.OffFence (s t : State) : Prop :=
  t = { s with
    records := t.records, pool := t.pool, commitSet := t.commitSet, expirySet := t.expirySet,
    releaseSet := t.releaseSet, aborts := t.aborts, links := t.links, lastGranted := t.lastGranted,
    responses := t.responses, reserved := t.reserved, engine := t.engine, bursts := t.bursts,
    issueNumber := t.issueNumber, timer := t.timer, fsRefused := t.fsRefused, fsTimeout := t.fsTimeout,
    fsAttention := t.fsAttention }

theorem State.OffFrames.refl (s : State) : s.OffFrames s := rfl

theorem State.OffFrames.trans {s t u : State} (h : s.OffFrames t) (k : t.OffFrames u) : s.OffFrames u := by
  unfold State.OffFrames at *
  rw [k, h]

theorem State.OffFence.refl (s : State) : s.OffFence s := rfl

theorem State.OffFence.trans {s t u : State} (h : s.OffFence t) (k : t.OffFence u) : s.OffFence u := by
  unfold State.OffFence at *
  rw [k, h]

/-- What the data path writes is among what a departure writes. -/
theorem State.OffFrames.offFence {s t : State} (h : s.OffFrames t) : s.OffFence t := by
  unfold State.OffFrames State.OffFence at *
  rw [h]

/-! ## The data path -/

theorem State.offFrames_setPlacement (s : State) (i : RecordNo) (p : Placement) :
    s.OffFrames (s.setPlacement i p) := rfl

theorem State.offFrames_setLink (s : State) (l : LinkNo) (k : Link) : s.OffFrames (s.setLink l k) := rfl

theorem State.offFrames_setContext (s : State) (l : LinkNo) (c : Channel) (f : Option Frame) :
    s.OffFrames (s.setContext l c f) := rfl

theorem State.offFrames_countLink (s : State) (l : LinkNo) (c : LinkCounter) : s.OffFrames (s.countLink l c) := rfl

theorem State.offFrames_issue (s : State) : s.OffFrames s.issue := rfl

theorem State.offFrames_takeFlip (s : State) (i : RecordNo) : s.OffFrames (s.takeFlip i) := by
  unfold State.takeFlip
  repeat' split
  all_goals rfl

theorem State.offFrames_openAndClaim (s : State) (i : RecordNo) (c : Key) : s.OffFrames (s.openAndClaim i c) := by
  have h := s.offFrames_takeFlip i
  unfold State.openAndClaim
  dsimp only
  split
  · exact h.trans (State.offFrames_setPlacement _ _ _)
  · exact h

theorem State.offFrames_unclaim (s : State) (i : RecordNo) (c : RecordCounter) : s.OffFrames (s.unclaim i c) := by
  unfold State.unclaim
  repeat' split
  all_goals rfl

theorem State.offFrames_truncate (s : State) (l : LinkNo) (c : Channel) : s.OffFrames (s.truncate l c) := by
  unfold State.truncate
  split
  · exact .refl s
  · dsimp only
    refine (State.offFrames_countLink s l .truncated).trans (State.OffFrames.trans ?_ (State.offFrames_setContext _ _ _ _))
    split
    · exact State.offFrames_unclaim _ _ _
    · exact .refl _

theorem State.offFrames_foldl_truncate (l : LinkNo) (cs : List Channel) (s : State) :
    s.OffFrames (cs.foldl (fun s c => s.truncate l c) s) := by
  induction cs generalizing s with
  | nil => exact .refl s
  | cons c cs ih => exact (s.offFrames_truncate l c).trans (ih _)

theorem State.offFrames_truncateAll (s : State) (l : LinkNo) : s.OffFrames (s.truncateAll l) :=
  State.offFrames_foldl_truncate l _ s

theorem State.offFrames_processOpen (s : State) (l : LinkNo) (g : Segment) : s.OffFrames (s.processOpen l g) := by
  unfold State.processOpen
  dsimp only
  refine (s.offFrames_truncate l ((look s.links l).contextOf g)).trans ?_
  split
  · exact (State.offFrames_countLink _ _ _).trans (State.offFrames_setContext _ _ _ _)
  · split
    · exact ((State.offFrames_setPlacement _ _ _).trans (State.offFrames_openAndClaim _ _ _)).trans
        (State.offFrames_setContext _ _ _ _)
    · exact (State.offFrames_setPlacement _ _ _).trans (State.offFrames_setContext _ _ _ _)

theorem State.offFrames_processClose (s : State) (l : LinkNo) (g : Segment) : s.OffFrames (s.processClose l g) := by
  unfold State.processClose
  dsimp only
  split
  · exact State.offFrames_countLink _ _ _
  · refine State.OffFrames.trans ?_ (State.offFrames_setContext _ _ _ _)
    split
    · exact State.offFrames_unclaim _ _ _
    · exact .refl _

theorem State.offFrames_takeHeads (l : LinkNo) (gs : List Segment) (s : State) : s.OffFrames (s.takeHeads l gs) := by
  induction gs generalizing s with
  | nil => exact State.offFrames_setLink _ _ _
  | cons g gs ih =>
    unfold State.takeHeads
    split
    · exact State.offFrames_setLink _ _ _
    · exact (State.offFrames_processOpen _ _ _).trans (ih _)
    · exact (State.offFrames_processClose _ _ _).trans (ih _)

theorem State.offFrames_joinBursts (s : State) (bs : List Burst) : s.OffFrames (s.joinBursts bs) := by
  unfold State.joinBursts
  dsimp only
  split <;> rfl

theorem State.offFrames_processLine (s : State) (l : LinkNo) (g : Segment) : s.OffFrames (s.processLine l g) := by
  unfold State.processLine
  dsimp only
  split
  · exact State.offFrames_countLink _ _ _
  · split
    · exact (State.offFrames_countLink _ _ _).trans (State.offFrames_setContext _ _ _ _)
    · exact (State.offFrames_joinBursts _ _).trans (State.offFrames_setContext _ _ _ _)

theorem State.offFrames_doGrant (s : State) (l : LinkNo) : s.OffFrames (s.doGrant l) := by
  unfold State.doGrant
  split
  · exact .refl s
  · rename_i g rest _
    have h : s.OffFrames { s with lastGranted := l } := rfl
    exact (h.trans (State.offFrames_processLine _ _ _)).trans (State.offFrames_takeHeads _ _ _)

theorem State.offFrames_grantUpTo (n : Nat) (s : State) : s.OffFrames (State.grantUpTo n s) := by
  induction n generalizing s with
  | zero => exact .refl s
  | succ n ih =>
    unfold State.grantUpTo
    split
    · exact (State.offFrames_doGrant _ _).trans (ih _)
    · exact .refl s

theorem State.offFrames_grantAll (s : State) : s.OffFrames s.grantAll := State.offFrames_grantUpTo _ s

theorem State.offFrames_offerSegment (s : State) (l : LinkNo) (g : Segment) : s.OffFrames (s.offerSegment l g) := by
  unfold State.offerSegment
  dsimp only
  split
  · split
    · split
      · exact (State.offFrames_setLink _ _ _).trans (State.offFrames_grantAll _)
      · exact State.offFrames_processOpen _ _ _
      · exact State.offFrames_processClose _ _ _
    · exact State.offFrames_setLink _ _ _
  · refine (State.offFrames_countLink s l .overrun).trans ?_
    split
    · split
      · exact .refl _
      · exact State.offFrames_setContext _ _ _ _
    all_goals exact .refl _

theorem State.offFrames_loseLock (s : State) (l : LinkNo) : s.OffFrames (s.loseLock l) :=
  (s.offFrames_truncateAll l).trans (State.offFrames_setLink _ _ _)

theorem State.offFrames_lockedError (s : State) (l : LinkNo) : s.OffFrames (s.lockedError l) := by
  unfold State.lockedError
  dsimp only
  split
  · exact (State.offFrames_setLink _ _ _).trans
      ((State.offFrames_loseLock _ _).trans (State.offFrames_grantAll _))
  · exact State.offFrames_setLink _ _ _

theorem State.offFrames_lockedGood (s : State) (l : LinkNo) (g : Segment) : s.OffFrames (s.lockedGood l g) :=
  (State.offFrames_setLink _ _ _).trans (State.offFrames_offerSegment _ _ _)

theorem State.offFrames_emptyReceiver (s : State) (l : LinkNo) (k : LinkState) : s.OffFrames (s.emptyReceiver l k) :=
  (s.offFrames_truncateAll l).trans (State.offFrames_setLink _ _ _)

theorem State.offFrames_takeSegment (s : State) (l : LinkNo) (h : Option Segment) (bs : List Byte) :
    s.OffFrames (s.takeSegment l h bs) := by
  unfold State.takeSegment
  dsimp only
  split
  · exact .refl s
  · exact State.offFrames_setLink _ _ _
  · split
    · exact State.offFrames_setLink _ _ _
    · exact .refl s
  · exact State.offFrames_lockedError _ _
  · split
    · exact State.offFrames_lockedGood _ _ _
    · exact .refl s

/-! ## Departures and fences -/

theorem State.offFence_post (s : State) (r : Response) : s.OffFence (s.post r) := rfl

theorem State.offFence_dropped (s : State) : s.OffFence s.dropped := rfl

theorem State.offFence_completeCommit (s : State) (i : RecordNo) (ts : List SlotLetter) :
    s.OffFence (s.completeCommit i ts) := by
  unfold State.completeCommit
  split <;> rfl

theorem State.offFence_completeRelease (s : State) (i : RecordNo) (ts : List SlotLetter) :
    s.OffFence (s.completeRelease i ts) := by
  unfold State.completeRelease
  repeat' split
  all_goals rfl

theorem State.offFence_completeFence (s : State) (op : FenceOperation) : s.OffFence (s.completeFence op) := by
  unfold State.completeFence
  split
  · rfl
  · exact State.offFence_completeCommit _ _ _
  · exact State.offFence_completeRelease _ _ _

theorem State.offFence_startFence (s : State) (op : FenceOperation) : s.OffFence (s.startFence op) := by
  unfold State.startFence
  split
  · rfl
  · exact State.offFence_completeFence _ _

theorem State.offFence_reportDeparture (s : State) : s.OffFence s.reportDeparture := by
  unfold State.reportDeparture
  split
  · split
    · rfl
    · exact State.offFence_completeFence _ _
  all_goals exact .refl s

theorem State.offFence_issueNext (s : State) : s.OffFence s.issueNext := by
  unfold State.issueNext
  split <;> rfl

theorem State.offFence_depart (s : State) : s.OffFence s.depart := by
  have h : s.OffFence { s with bursts := s.bursts.tail } := rfl
  exact (h.trans (State.offFence_reportDeparture _)).trans (State.offFence_issueNext _)

theorem State.offFence_countDeparture (s : State) (how : Departure) : s.OffFence (s.countDeparture how) := by
  unfold State.countDeparture
  split <;> rfl

theorem State.offFence_takeDeparture (s : State) (how : Departure) : s.OffFence (s.takeDeparture how) := by
  unfold State.takeDeparture
  split
  · exact ((State.offFence_countDeparture _ _).trans (State.offFence_depart _)).trans
      (State.offFrames_grantAll _).offFence
  · exact .refl s

theorem State.offFence_headEvent (s : State) (l : LinkNo) (k : SegmentKind) (how : HeadArrival) :
    s.OffFence (s.headEvent l k how) := by
  unfold State.headEvent
  split
  · dsimp only
    split
    · exact (State.offFrames_lockedGood _ _ _).offFence
    · exact .refl s
  · split
    · exact State.offFence_takeDeparture _ _
    · exact .refl s

theorem State.offFence_endFence (s : State) (k : FenceRequest → Bool) (how : Departure) :
    s.OffFence (s.endFence k how) := by
  unfold State.endFence
  split
  · exact State.offFence_takeDeparture _ _
  · exact .refl s

/-! ## Starts -/

/-- A start takes the request out of its source and reserves an entry, and writes nothing else (R46). -/
theorem State.begun_frame (s : State) (x : Source) (q : Request) :
    s.begun x q = { s with
      reserved := s.reserved + 1, prioritySlot := (s.begun x q).prioritySlot,
      releaseSet := (s.begun x q).releaseSet, commitSet := (s.begun x q).commitSet,
      expirySet := (s.begun x q).expirySet, backup := (s.begun x q).backup,
      commandQueue := (s.begun x q).commandQueue } := by
  unfold State.begun
  cases x <;> cases q <;> first | rfl | (cases s.backup <;> simp)

end Sys2Proof.Machine
end

