-- ==== Sys2Proof/Laws/Grants.lean ====
section
/-! SUPPORT. The grants of one event: what each shared operation of the data path leaves in the intake FIFOs, that a
grant takes a segment, and so what `grantAll` gives and how to show that it keeps something. -/

namespace Sys2Proof.Machine

/-! ## The intake FIFOs -/

theorem State.fifo_setContext (s : State) (l m : LinkNo) (c : Channel) (f : Option Frame) :
    (look (s.setContext l c f).links m).fifo = (look s.links m).fifo := by
  simp only [State.setContext, State.setLink, look_put]
  split
  · rename_i h; subst h; rfl
  · rfl

theorem State.fifo_countLink (s : State) (l m : LinkNo) (n : LinkCounter) :
    (look (s.countLink l n).links m).fifo = (look s.links m).fifo := by
  simp only [State.countLink, State.setLink, look_put]
  split
  · rename_i h; subst h; rfl
  · rfl

@[simp] theorem State.links_setPlacement (s : State) (i : RecordNo) (p : Placement) :
    (s.setPlacement i p).links = s.links := rfl

@[simp] theorem State.links_takeFlip (s : State) (i : RecordNo) : (s.takeFlip i).links = s.links := by
  unfold State.takeFlip
  repeat' split
  all_goals rfl

@[simp] theorem State.links_openAndClaim (s : State) (i : RecordNo) (c : Key) :
    (s.openAndClaim i c).links = s.links := by
  have h := s.links_takeFlip i
  unfold State.openAndClaim
  dsimp only
  split
  · exact h
  · exact h

@[simp] theorem State.links_unclaim (s : State) (i : RecordNo) (c : RecordCounter) : (s.unclaim i c).links = s.links := by
  unfold State.unclaim
  repeat' split
  all_goals rfl

@[simp] theorem State.links_joinBursts (s : State) (bs : List Burst) : (s.joinBursts bs).links = s.links := by
  unfold State.joinBursts
  dsimp only
  split <;> rfl

/-- A truncation leaves every FIFO (R128). -/
@[simp] theorem State.fifo_truncate (s : State) (l m : LinkNo) (c : Channel) :
    (look (s.truncate l c).links m).fifo = (look s.links m).fifo := by
  unfold State.truncate
  split
  · rfl
  · dsimp only
    split <;> simp only [State.fifo_setContext, State.links_unclaim, State.fifo_countLink]

/-- Processing an OPEN leaves every FIFO. -/
@[simp] theorem State.fifo_processOpen (s : State) (l m : LinkNo) (g : Segment) :
    (look (s.processOpen l g).links m).fifo = (look s.links m).fifo := by
  unfold State.processOpen
  dsimp only
  split
  · rw [State.fifo_setContext, State.fifo_countLink, State.fifo_truncate]
  · split <;>
      simp only [State.fifo_setContext, State.links_openAndClaim, State.links_setPlacement, State.fifo_truncate]

/-- Processing a CLOSE leaves every FIFO. -/
@[simp] theorem State.fifo_processClose (s : State) (l m : LinkNo) (g : Segment) :
    (look (s.processClose l g).links m).fifo = (look s.links m).fifo := by
  unfold State.processClose
  dsimp only
  split
  · rw [State.fifo_countLink]
  · split <;> simp only [State.fifo_setContext, State.links_unclaim]

/-- Processing a LINE leaves every FIFO. -/
@[simp] theorem State.fifo_processLine (s : State) (l m : LinkNo) (g : Segment) :
    (look (s.processLine l g).links m).fifo = (look s.links m).fifo := by
  unfold State.processLine
  dsimp only
  split
  · rw [State.fifo_countLink]
  · split <;> simp only [State.fifo_setContext, State.fifo_countLink, State.links_joinBursts]

/-- Of the segments behind, the FIFO keeps what begins with a LINE, and every other FIFO is left (R126). -/
theorem State.fifo_takeHeads (l m : LinkNo) (gs : List Segment) (s : State) :
    (look (s.takeHeads l gs).links m).fifo =
      if m = l then gs.dropWhile fun g => decide (g.kind ≠ .line) else (look s.links m).fifo := by
  induction gs generalizing s with
  | nil =>
    simp only [State.takeHeads, State.setLink, look_put, List.dropWhile_nil]
    by_cases h : l = m
    · subst h; simp
    · simp [h, Ne.symm h]
  | cons g gs ih =>
    unfold State.takeHeads
    split
    · rename_i hk
      simp only [State.setLink, look_put, List.dropWhile_cons, hk]
      by_cases h : l = m
      · subst h; simp
      · simp [h, Ne.symm h]
    all_goals
      rename_i hk
      rw [ih]
      simp [hk]

/-! ## A grant takes a segment -/

/-- A granted link has a LINE at the head of its FIFO (R126, R145). -/
theorem State.fifo_of_granted {s : State} {l : LinkNo} (h : s.granted = some l) :
    ∃ g rest, (look s.links l).fifo = g :: rest ∧ g.kind = .line := by
  unfold State.granted at h
  rw [Option.filter_eq_some_iff] at h
  have hr := List.find?_some h.1
  unfold State.roomRequest at hr
  split at hr
  · rename_i g rest hf
    by_cases hk : g.kind = .line
    · exact ⟨g, rest, hf, hk⟩
    · simp [hk] at hr
  · simp at hr

/-- A sum falls when one part falls and no part rises. -/
theorem sum_lt_of_le {α : Type} (l : List α) (f g : α → Nat) (a : α) (ha : a ∈ l) (hlt : f a < g a)
    (hle : ∀ b ∈ l, f b ≤ g b) : (l.map f).sum < (l.map g).sum :=
  List.sum_lt_sum f g hle ⟨a, ha, hlt⟩

/-- After a grant fewer segments wait. -/
theorem State.waiting_doGrant {s : State} {l : LinkNo} (h : s.granted = some l) :
    (s.doGrant l).waiting < s.waiting := by
  obtain ⟨g, rest, hf, -⟩ := State.fifo_of_granted h
  unfold State.waiting State.doGrant
  rw [hf]
  dsimp only
  refine sum_lt_of_le _ _ _ l (List.mem_finRange l) ?_ ?_
  · rw [State.fifo_takeHeads, if_pos rfl, hf]
    exact Nat.lt_succ_of_le (List.length_dropWhile_le _ _)
  · intro m _
    rw [State.fifo_takeHeads]
    split
    · rename_i hm
      subst hm
      rw [hf]
      exact Nat.le_succ_of_le (List.length_dropWhile_le _ _)
    · simp

/-! ## The grants of one event (R145) -/

/-- Where no grant is possible, none is made. -/
theorem State.grantUpTo_none {s : State} (h : s.granted = none) (n : Nat) : State.grantUpTo n s = s := by
  cases n with
  | zero => rfl
  | succ n => simp [State.grantUpTo, h]

/-- Any two numbers of grants that are enough give the same state. -/
theorem State.grantUpTo_eq (n m : Nat) (s : State) (hn : s.waiting ≤ n) (hm : s.waiting ≤ m) :
    State.grantUpTo n s = State.grantUpTo m s := by
  induction n generalizing m s with
  | zero =>
    cases hg : s.granted with
    | none => rw [State.grantUpTo_none hg, State.grantUpTo_none hg]
    | some l => have := State.waiting_doGrant hg; omega
  | succ n ih =>
    cases hg : s.granted with
    | none => rw [State.grantUpTo_none hg, State.grantUpTo_none hg]
    | some l =>
      have hlt := State.waiting_doGrant hg
      cases m with
      | zero => omega
      | succ m =>
        simp only [State.grantUpTo, hg]
        exact ih m _ (by omega) (by omega)

/-- No grant is made where none is possible (R145). -/
theorem State.grantAll_none {s : State} (h : s.granted = none) : s.grantAll = s := State.grantUpTo_none h _

/-- A grant that is possible is made, and the grants that are possible after it follow (R145). -/
theorem State.grantAll_some {s : State} {l : LinkNo} (h : s.granted = some l) : s.grantAll = (s.doGrant l).grantAll := by
  have hlt := State.waiting_doGrant h
  unfold State.grantAll
  rw [State.grantUpTo_eq s.waiting (s.waiting + 1) s (le_refl _) (Nat.le_succ _)]
  simp only [State.grantUpTo, h]
  exact State.grantUpTo_eq _ _ _ (by omega) (le_refl _)

/-- What holds before and is kept by each grant holds after all of them. -/
theorem State.grantAll_induction {P : State → Prop} (keep : ∀ s l, P s → s.granted = some l → P (s.doGrant l))
    {s : State} (h : P s) : P s.grantAll := by
  unfold State.grantAll
  generalize s.waiting = n
  induction n generalizing s with
  | zero => exact h
  | succ n ih =>
    unfold State.grantUpTo
    split
    · rename_i l hl
      exact ih (keep s l h hl)
    · exact h

/-- After the grants of an event no grant is possible (R145). -/
theorem State.granted_grantAll (s : State) : s.grantAll.granted = none := by
  generalize hn : s.waiting = n
  induction n using Nat.strong_induction_on generalizing s with
  | _ n ih =>
    cases hg : s.granted with
    | none => rw [State.grantAll_none hg]; exact hg
    | some l =>
      rw [State.grantAll_some hg]
      have hlt := State.waiting_doGrant hg
      exact ih _ (by omega) _ rfl

end Sys2Proof.Machine
end

