-- ==== Sys2Proof/Laws/Ops.lean ====
section
/-! SUPPORT. One lemma for each shared operation that says what it gives: results of commands that complete in their
start event, searches of the tables, allocation and release of entries, the pairs of a mutual comparison, and the OPEN
or CLOSE that joins an empty FIFO. -/

namespace Sys2Proof.Machine

/-! ## Starts and results -/

/-- A host command that completes in its start event leaves `answered` (R46, R53). -/
theorem State.finish_begun {s : State} (h : s.engine = .idle) (x : Source) (r : CommandRecord) (st : Status)
    (p : Payload) (f : Option Handle) :
    (s.begun x (.command r)).finish r st p f = s.answered x r st (r.command.namedHandle <|> f) p := by
  unfold State.finish State.post State.answered
  rw [State.begun_frame]
  simp [h]

@[simp] theorem State.begun_engine (s : State) (x : Source) (q : Request) : (s.begun x q).engine = s.engine := by
  rw [State.begun_frame]

@[simp] theorem State.begun_links (s : State) (x : Source) (q : Request) : (s.begun x q).links = s.links := by
  rw [State.begun_frame]

@[simp] theorem State.begun_records (s : State) (x : Source) (q : Request) : (s.begun x q).records = s.records := by
  rw [State.begun_frame]

@[simp] theorem State.begun_keyIndex (s : State) (x : Source) (q : Request) :
    (s.begun x q).keyIndex = s.keyIndex := by rw [State.begun_frame]

@[simp] theorem State.begun_pool (s : State) (x : Source) (q : Request) : (s.begun x q).pool = s.pool := by
  rw [State.begun_frame]

@[simp] theorem State.begun_planes (s : State) (x : Source) (q : Request) : (s.begun x q).planes = s.planes := by
  rw [State.begun_frame]

@[simp] theorem State.begun_checkLive (s : State) (x : Source) (q : Request) (h : Handle) :
    (s.begun x q).checkLive h = s.checkLive h := by rw [State.begun_frame]; rfl

@[simp] theorem State.begun_checkHandle (s : State) (x : Source) (q : Request) (h : Handle) :
    (s.begun x q).checkHandle h = s.checkHandle h := by rw [State.begun_frame]; rfl

@[simp] theorem State.begun_slotDenial (s : State) (x : Source) (q : Request) (l : LinkNo) (ds : List DestDesc) :
    (s.begun x q).slotDenial l ds = s.slotDenial l ds := by rw [State.begun_frame]; rfl

@[simp] theorem State.begun_tableFree (s : State) (x : Source) (q : Request) :
    (s.begun x q).tableFree = s.tableFree := by rw [State.begun_frame]; rfl

/-! ## Searches -/

/-- The lowest-numbered record whose bit is set (R73). -/
theorem lowestSet_eq_some (v : Vector Bool 64) (i : RecordNo) :
    lowestSet v = some i ↔ look v i = true ∧ ∀ j, j < i → look v j = false := by
  unfold lowestSet
  rw [List.find?_eq_some_iff_getElem]
  constructor
  · rintro ⟨h1, k, hk, h2, h3⟩
    refine ⟨h1, fun j hj => ?_⟩
    simp at h2 hk; subst h2
    simpa using h3 j.val hj
  · rintro ⟨h1, h2⟩
    refine ⟨h1, i.val, by simp, by simp, ?_⟩
    intro j hj
    simp
    exact h2 ⟨j, by omega⟩ hj

/-- The lowest OCCUPIED entry at or above an index (R49). -/
theorem State.nextOccupied_eq_some (s : State) (n : Nat) (e : EntryNo) :
    s.nextOccupied n = some e ↔
      n ≤ e.val ∧ look s.pool e ≠ none ∧ ∀ g : EntryNo, n ≤ g.val → g < e → look s.pool g = none := by
  unfold State.nextOccupied
  rw [List.find?_eq_some_iff_getElem]
  constructor
  · rintro ⟨h1, i, hi, h2, h3⟩
    simp only [Bool.and_eq_true, decide_eq_true_eq, Option.isSome_iff_ne_none] at h1
    refine ⟨h1.1, h1.2, ?_⟩
    intro g hg hlt
    have hgi : g.val < i := by
      simp at h2 hi; subst h2; exact hlt
    have := h3 g.val hgi
    rcases (by simpa using this : g.val < n ∨ look s.pool g = none) with h | h
    · omega
    · exact h
  · rintro ⟨h1, h2, h3⟩
    refine ⟨by simp [h1, Option.isSome_iff_ne_none, h2], e.val, by simp, by simp, ?_⟩
    intro j hj
    simp
    by_cases hn : n ≤ j
    · exact .inr (h3 ⟨j, by omega⟩ hn hj)
    · exact .inl (by omega)

/-- No entry at or above an index is OCCUPIED. -/
theorem State.nextOccupied_eq_none (s : State) (n : Nat) :
    s.nextOccupied n = none ↔ ∀ e : EntryNo, n ≤ e.val → look s.pool e = none := by
  unfold State.nextOccupied
  simp [List.find?_eq_none]

/-- No slot of a record is in a state. -/
theorem Placement.find?_eq_none (b : Placement) (ph : SlotPhase) : b.find? ph = none ↔ b.slotsIn ph = [] := by
  unfold Placement.find? Placement.slotsIn Placement.phase? Placement.slot
  cases ha : b.slotA <;> cases hb : b.slotB <;> simp [List.filter_cons]
  all_goals
    split <;> simp_all

/-- The link at each place of the turn (R145). -/
theorem State.turn_val (s : State) (j : Nat) (hj : j < s.turn.length) :
    (s.turn[j]).val = (s.lastGranted.val + 1 + j) % 6 := by
  simp only [State.turn, List.length_map, List.length_finRange] at hj
  simp only [State.turn, List.getElem_map, List.getElem_finRange]
  simp [Fin.val_add]

/-! ## The pairs of a mutual comparison (R40) -/

/-- The conflicting pairs are the pairs of positions whose rectangles share a pixel. -/
theorem mem_conflictsFrom (ds : List DestDesc) (start a b : Nat) :
    (a, b) ∈ conflictsFrom start ds ↔
      ∃ d e, start ≤ a ∧ a < b ∧ ds[a - start]? = some d ∧ ds[b - start]? = some e ∧ d.rect.shares e.rect = true := by
  induction ds generalizing start with
  | nil => simp [conflictsFrom]
  | cons d ds ih =>
    simp only [conflictsFrom, List.mem_append, List.mem_map, List.mem_filter, ih]
    constructor
    · rintro (⟨⟨e, n⟩, ⟨h1, h2⟩, h3⟩ | ⟨d', e, h1, h2, h3, h4, h5⟩)
      · simp only [Prod.mk.injEq] at h3
        obtain ⟨rfl, rfl⟩ := h3
        rw [List.mem_zipIdx_iff_le_and_getElem?_sub] at h1
        simp only at h1
        refine ⟨d, e, le_refl _, by omega, by simp, ?_, h2⟩
        rw [show n - start = (n - (start + 1)) + 1 by omega]
        simpa using h1.2
      · refine ⟨d', e, by omega, h2, ?_, ?_, h5⟩
        · rw [show a - start = (a - (start + 1)) + 1 by omega]; simpa using h3
        · rw [show b - start = (b - (start + 1)) + 1 by omega]; simpa using h4
    · rintro ⟨d', e, h1, h2, h3, h4, h5⟩
      by_cases ha : a = start
      · subst ha
        left
        simp at h3; subst h3
        refine ⟨(e, b), ⟨?_, h5⟩, rfl⟩
        rw [List.mem_zipIdx_iff_le_and_getElem?_sub]
        refine ⟨by show a + 1 ≤ b; omega, ?_⟩
        rw [show b - a = (b - (a + 1)) + 1 by omega] at h4
        simpa using h4
      · right
        refine ⟨d', e, by omega, h2, ?_, ?_, h5⟩
        · rw [show a - start = (a - (start + 1)) + 1 by omega] at h3; simpa using h3
        · rw [show b - start = (b - (start + 1)) + 1 by omega] at h4; simpa using h4

/-- A choice is one of the pairs, and there is none exactly when there is no pair. -/
theorem chosenPair_mem (draw : Nat) (l : List (Nat × Nat)) :
    (l = [] ∧ chosenPair draw l = none) ∨ ∃ c ∈ l, chosenPair draw l = some c := by
  match l with
  | [] => exact .inl ⟨rfl, rfl⟩
  | [c] => exact .inr ⟨c, by simp, rfl⟩
  | c :: d :: rest =>
    right
    have hlt : Config.mutualPair draw % (rest.length + 2) < (c :: d :: rest).length := Nat.mod_lt _ (by omega)
    refine ⟨_, ?_, rfl⟩
    rw [List.getD_eq_getElem?_getD, List.getElem?_eq_getElem hlt]
    exact List.getElem_mem hlt

/-! ## Allocation and release (R34, R35) -/

/-- The FREE entries are those that hold nothing. -/
theorem State.mem_freeEntries (s : State) (e : EntryNo) : e ∈ s.freeEntries ↔ look s.pool e = none := by
  simp [State.freeEntries]

/-- The FREE entries stand in ascending order. -/
theorem State.freeEntries_pairwise (s : State) : s.freeEntries.Pairwise (· < ·) :=
  (List.pairwise_lt_finRange 128).filter _

/-- Filling leaves every entry that is not on the list. -/
theorem look_fillPool_of_not_mem (i : RecordNo) (x : SlotLetter) (l : List (EntryNo × DestDesc)) (e : EntryNo)
    (pool : Vector (Option Entry) 128) (h : e ∉ l.map Prod.fst) : look (fillPool pool i x l) e = look pool e := by
  induction l generalizing pool with
  | nil => rfl
  | cons a l ih =>
    obtain ⟨a, d⟩ := a
    simp at h
    simp only [fillPool]
    rw [ih, look_put_ne]
    · exact fun q => h.1 q.symm
    · simpa using h.2

/-- Filling gives each entry of the list its description. -/
theorem look_fillPool (i : RecordNo) (x : SlotLetter) (es : List EntryNo) (ds : List DestDesc) (hnd : es.Nodup)
    (pool : Vector (Option Entry) 128) (n : Nat) (e : EntryNo) (d : DestDesc) (he : es[n]? = some e)
    (hd : ds[n]? = some d) : look (fillPool pool i x (es.zip ds)) e = some (d.entry i x) := by
  induction es generalizing ds pool n with
  | nil => simp at he
  | cons a es ih =>
    cases ds with
    | nil => simp at hd
    | cons d' ds =>
      simp only [List.zip_cons_cons, fillPool]
      cases n with
      | zero =>
        simp at he hd; subst he; subst hd
        rw [look_fillPool_of_not_mem]
        · simp
        · intro hm
          obtain ⟨⟨p, q⟩, hpq, hp⟩ := List.mem_map.mp hm
          have := (List.of_mem_zip hpq).1
          simp at hp; subst hp
          exact (List.nodup_cons.mp hnd).1 this
      | succ n => exact ih ds (List.nodup_cons.mp hnd).2 _ n (by simpa using he) (by simpa using hd)

/-- Emptying makes the entries of the list FREE and leaves the others. -/
theorem look_emptyPool (pool : Vector (Option Entry) 128) (es : List EntryNo) (e : EntryNo) :
    look (emptyPool pool es) e = if e ∈ es then none else look pool e := by
  induction es generalizing pool with
  | nil => simp [emptyPool]
  | cons a es ih =>
    simp only [emptyPool, ih, look_put, List.mem_cons]
    by_cases h : e ∈ es
    · simp [h]
    · by_cases ha : a = e
      · simp [ha]
      · simp [h, ha, Ne.symm ha]

/-! ## Heads of the FIFO (R126) -/

/-- A segment offered to the empty FIFO of a LOCKED link sets the error run to 0 and is taken by its kind (R123,
R126). -/
theorem State.lockedGood_empty {s : State} {l : LinkNo} (g : Segment) (hf : (look s.links l).fifo = []) :
    s.lockedGood l g =
      let t := s.setLink l { look s.links l with errorRun := 0 }
      match g.kind with
      | .line => (t.setLink l { look t.links l with fifo := [g] }).grantAll
      | .openFrame => t.processOpen l g
      | .closeFrame => t.processClose l g := by
  have hlk : look (s.setLink l { look s.links l with errorRun := 0 }).links l =
      { look s.links l with errorRun := 0 } := by simp [State.setLink]
  unfold State.lockedGood State.offerSegment
  dsimp only
  rewrite [hlk, if_pos (by simp [hf]), if_pos (by simp [hf])]
  cases g.kind <;> rfl

/-- An OPEN or CLOSE that joins the empty FIFO of a LOCKED link is offered to it. -/
theorem State.headEvent_joins {s : State} {l : LinkNo} (kind : SegmentKind) (ch : Channel) (a b : U16)
    (hl : (look s.links l).state = .locked) (hf : (look s.links l).fifo = []) :
    s.headEvent l kind (.joins ch a b) =
      s.lockedGood l { kind := kind, channel := ch, fieldA := a, fieldB := b, payload := [] } := by
  unfold State.headEvent
  dsimp only
  rw [if_pos ⟨hl, hf⟩]

end Sys2Proof.Machine
end

