-- ==== Sys2Proof/Laws/PerInstr.lean ====
section
/-! SUPPORT. The family NoTableWord, per constructor of `Instr`: no word of the opcode table spells the command, since
no row of the table gives bits. -/

namespace Sys2Proof.Laws.NoTableWord

/-- No table word spells the command. -/
def Statement (i : Instr) : Prop := ∀ nbits w : Nat, decodeTableWord nbits w ≠ some i

theorem powerOn : Statement .powerOn := by intro _ _ h; cases h
theorem incompleteFrame received : Statement (.incompleteFrame received) := by intro _ _ h; cases h
theorem malformed code : Statement (.malformed code) := by intro _ _ h; cases h
theorem pushCommand length bytes : Statement (.pushCommand length bytes) := by intro _ _ h; cases h
theorem pushPriority length bytes : Statement (.pushPriority length bytes) := by intro _ _ h; cases h
theorem withdrawPriority : Statement .withdrawPriority := by intro _ _ h; cases h
theorem flushQueue : Statement .flushQueue := by intro _ _ h; cases h
theorem popResponse : Statement .popResponse := by intro _ _ h; cases h
theorem readStatus : Statement .readStatus := by intro _ _ h; cases h
theorem readLink link : Statement (.readLink link) := by intro _ _ h; cases h
theorem readFramestore : Statement .readFramestore := by intro _ _ h; cases h
theorem setPortControl mask mark gate : Statement (.setPortControl mask mark gate) := by intro _ _ h; cases h
theorem tableReset : Statement .tableReset := by intro _ _ h; cases h
theorem create : Statement .create := by intro _ _ h; cases h
theorem amend : Statement .amend := by intro _ _ h; cases h
theorem definePlane : Statement .definePlane := by intro _ _ h; cases h
theorem scanStep : Statement .scanStep := by intro _ _ h; cases h
theorem createCompletion : Statement .createCompletion := by intro _ _ h; cases h
theorem amendCompletion : Statement .amendCompletion := by intro _ _ h; cases h
theorem definePlaneCompletion : Statement .definePlaneCompletion := by intro _ _ h; cases h
theorem setAttributes : Statement .setAttributes := by intro _ _ h; cases h
theorem retire : Statement .retire := by intro _ _ h; cases h
theorem lookup : Statement .lookup := by intro _ _ h; cases h
theorem query : Statement .query := by intro _ _ h; cases h
theorem configureLink : Statement .configureLink := by intro _ _ h; cases h
theorem configureFramestore : Statement .configureFramestore := by intro _ _ h; cases h
theorem setLevels : Statement .setLevels := by intro _ _ h; cases h
theorem readCounters : Statement .readCounters := by intro _ _ h; cases h
theorem sync : Statement .sync := by intro _ _ h; cases h
theorem syncCompletion how : Statement (.syncCompletion how) := by intro _ _ h; cases h
theorem expire : Statement .expire := by intro _ _ h; cases h
theorem commit : Statement .commit := by intro _ _ h; cases h
theorem commitCompletion how : Statement (.commitCompletion how) := by intro _ _ h; cases h
theorem release : Statement .release := by intro _ _ h; cases h
theorem releaseCompletion how : Statement (.releaseCompletion how) := by intro _ _ h; cases h
theorem segmentArrival link header payload : Statement (.segmentArrival link header payload) := by intro _ _ h; cases h
theorem openFrame link how : Statement (.openFrame link how) := by intro _ _ h; cases h
theorem closeFrame link how : Statement (.closeFrame link how) := by intro _ _ h; cases h
theorem grant : Statement .grant := by intro _ _ h; cases h
theorem abortRequest record link channel : Statement (.abortRequest record link channel) := by intro _ _ h; cases h
theorem acknowledgement number : Statement (.acknowledgement number) := by intro _ _ h; cases h
theorem errorResponse number : Statement (.errorResponse number) := by intro _ _ h; cases h
theorem ackTimeout : Statement .ackTimeout := by intro _ _ h; cases h
theorem millisecondStep : Statement .millisecondStep := by intro _ _ h; cases h
theorem expiry record : Statement (.expiry record) := by intro _ _ h; cases h

end Sys2Proof.Laws.NoTableWord
end

