-- ==== Sys2Proof/Laws/Port.lean ====
section
/-! SUPPORT. The management port, once: when a transaction is taken, what a push is, and the bits on MDI and MDO. -/

namespace Sys2Proof.Machine

/-- While MCS# is ignored nothing is taken (R186). -/
theorem State.taking_ignored {s : State} (h : s.frame = .ignored) (effect : State → State) :
    s.taking effect = s := by
  unfold State.taking
  rw [h]

/-- Where MCS# is not ignored a transaction is taken, and its frame is in its reply part (R170, R171). -/
theorem State.taking_taken {s : State} (h : s.frame ≠ .ignored) (effect : State → State) :
    s.taking effect = (effect s).withFrame .replying := by
  unfold State.taking
  cases hf : s.frame with
  | ignored => exact absurd hf h
  | idle => rfl
  | inProgress _ => rfl
  | replying => rfl

/-- What holds of a state, and of a transaction's effect with its frame in its reply part, holds after its event. -/
theorem State.taking_keeps {P : State → Prop} {s : State} {effect : State → State} (h : P s)
    (he : P ((effect s).withFrame .replying)) : P (s.taking effect) := by
  unfold State.taking
  split
  · exact h
  · exact he
  · exact he
  · exact he

/-- A push of fewer bytes than its length says is an incomplete frame (R172). -/
theorem State.takePush_short {length : Byte} {bytes : List Byte} (h : bytes.length < length.toNat) (s : State)
    (accept : CommandRecord → State → State) :
    s.takePush length bytes accept = s.withFrame .idle := by
  unfold State.takePush pushRecord
  rw [if_neg (by omega)]

/-- A whole push of a record that parses hands it to its source (R174, R175). -/
theorem State.takePush_accepted {s : State} {length : Byte} {bytes : List Byte} {r : CommandRecord}
    (hf : s.frame ≠ .ignored) (h : length.toNat ≤ bytes.length) (hr : parseRecord (bytes.take length.toNat) = some r)
    (accept : CommandRecord → State → State) :
    s.takePush length bytes accept = (accept r s).withFrame .replying := by
  unfold State.takePush pushRecord
  rw [if_pos h]
  dsimp only
  rw [State.taking_taken hf, hr]

/-- A whole push of a record that does not parse is answered MALFORMED (R91, R173). -/
theorem State.takePush_malformed {s : State} {length : Byte} {bytes : List Byte}
    (hf : s.frame ≠ .ignored) (h : length.toNat ≤ bytes.length) (hr : parseRecord (bytes.take length.toNat) = none)
    (accept : CommandRecord → State → State) :
    s.takePush length bytes accept =
      { s with frame := .replying, reply := [0xAF] } := by
  unfold State.takePush pushRecord
  rw [if_pos h]
  dsimp only
  rw [State.taking_taken hf, hr]
  rfl

/-- A whole push while MCS# is ignored is not taken (R186). -/
theorem State.takePush_ignored {s : State} {length : Byte} {bytes : List Byte} (hf : s.frame = .ignored)
    (h : length.toNat ≤ bytes.length) (accept : CommandRecord → State → State) :
    s.takePush length bytes accept = s := by
  unfold State.takePush pushRecord
  rw [if_pos h]
  exact State.taking_ignored hf _

/-- MDO with MCS# high (R170). -/
theorem State.mdo_idle {s : State} (h : s.frame = .idle) : s.mdo = .highImpedance := by
  rw [State.mdo, h]

/-- MDO while MCS# is ignored (R186; log 27). -/
theorem State.mdo_ignored {s : State} (h : s.frame = .ignored) : s.mdo = .highImpedance := by
  rw [State.mdo, h]

/-- MDO in the request part (R170). -/
theorem State.mdo_inProgress {s : State} {received : List Byte} (h : s.frame = .inProgress received) :
    s.mdo = .sending [] := by
  rw [State.mdo, h]

/-- MDO from the taking on: the reply fixed there (R171). -/
theorem State.mdo_replying {s : State} (h : s.frame = .replying) : s.mdo = .sending (s.reply.flatMap sentBits) := by
  rw [State.mdo, h]

/-- A byte sent most significant bit first is received as that byte (R170). -/
theorem sampledBytes_sentBits (b : Byte) (rest : List Bool) :
    sampledBytes (sentBits b ++ rest) = b :: sampledBytes rest :=
  congrArg (· :: sampledBytes rest) (by revert b; decide +kernel :
    BitVec.ofBool (b.getMsbD 0) ++ BitVec.ofBool (b.getMsbD 1) ++ BitVec.ofBool (b.getMsbD 2) ++
      BitVec.ofBool (b.getMsbD 3) ++ BitVec.ofBool (b.getMsbD 4) ++ BitVec.ofBool (b.getMsbD 5) ++
      BitVec.ofBool (b.getMsbD 6) ++ BitVec.ofBool (b.getMsbD 7) = b)

end Sys2Proof.Machine
end

