-- ==== Sys2Proof/Tests/Slice0.lean ====
section
/-! SUPPORT. The model's own tests: ill-formed commands that the check of well-formedness refuses, one or two steps of
every command on small states (most of them taken from the examples of chapter 11), and, for every statement with
hypotheses, concrete states and operands that meet them. -/

set_option Elab.async false

namespace Sys2Proof.Tests

open Sys2Proof.Machine

/-! ## Well-formedness: one ill-formed term for each check -/

/-- A PUSH-COMMAND code without its length byte is an incomplete request, a lone READ-STATUS code is a whole one. -/
theorem test_wellFormed_incompleteFrame :
    (Instr.incompleteFrame (.ended [0x10])).wellFormed = true ∧
      (Instr.incompleteFrame (.ended [0x20])).wellFormed = false ∧
      (Instr.incompleteFrame (.underWay [0x22])).wellFormed = true ∧
      (Instr.incompleteFrame (.underWay [0x22, 1])).wellFormed = false ∧
      (Instr.incompleteFrame .replied).wellFormed = true := by
  decide +kernel

/-- The codes 00h and FFh name no transaction, 3Fh names TABLE-RESET. -/
theorem test_wellFormed_malformed :
    (Instr.malformed 0x00).wellFormed = true ∧ (Instr.malformed 0xFF).wellFormed = true ∧
      (Instr.malformed 0x3F).wellFormed = false := by
  decide +kernel

theorem test_wellFormed_pushCommand :
    (Instr.pushCommand 3 [0x0C, 1, 0]).wellFormed = true ∧ (Instr.pushCommand 3 [0x0C, 1]).wellFormed = false := by
  decide +kernel

theorem test_wellFormed_pushPriority :
    (Instr.pushPriority 3 [0x0C, 1, 0]).wellFormed = true ∧
      (Instr.pushPriority 2 [0x0C, 1, 0]).wellFormed = false := by
  decide +kernel

/-- An OPEN carries no payload; a LINE of 2 pixels carries 4 or 8 bytes. -/
theorem test_wellFormed_segmentArrival :
    (Instr.segmentArrival 0 #v[0xB7, 0x4E, 0x20, 0, 0, 0, 2, 0] [1, 2, 3, 4]).wellFormed = true ∧
      (Instr.segmentArrival 0 #v[0xB7, 0x4E, 0x20, 0, 0, 0, 2, 0] [1, 2, 3]).wellFormed = false ∧
      (Instr.segmentArrival 0 #v[0xB7, 0x4E, 0x10, 0, 0, 0, 0, 0] [1]).wellFormed = false := by
  decide +kernel

/-! ## Management frames (R187) -/

/-- The bytes of whole frames, and of frames that end early. -/
theorem test_frameCommand :
    frameCommand [0x10, 3, 0x0C, 1, 0, 0xEE] = .pushCommand 3 [0x0C, 1, 0] ∧
      frameCommand [0x11, 3, 0x0C, 1, 1] = .pushPriority 3 [0x0C, 1, 1] ∧
      frameCommand [0x12, 0, 0, 0] = .withdrawPriority ∧ frameCommand [0x13, 0] = .flushQueue ∧
      frameCommand [0x20, 0] = .popResponse ∧ frameCommand [0x21] = .readStatus ∧
      frameCommand [0x22, 5] = .readLink 5 ∧ frameCommand [0x23] = .readFramestore ∧
      frameCommand [0x30, 3, 4, 1] = .setPortControl 3 4 1 ∧ frameCommand [0x3F] = .tableReset ∧
      frameCommand [0x00] = .malformed 0x00 ∧ frameCommand [0xFF, 1] = .malformed 0xFF ∧
      frameCommand [0x10, 3, 0x0C, 1] = .incompleteFrame (.ended [0x10, 3, 0x0C, 1]) ∧
      frameCommand [0x30, 3, 4] = .incompleteFrame (.ended [0x30, 3, 4]) := by decide +kernel

/-- READ-LINK 5 as the bits on MDI, and the same cut within its second byte (R170, R172). -/
theorem test_mdiCommand :
    mdiCommand [false, false, true, false, false, false, true, false,
        false, false, false, false, false, true, false, true] = .readLink 5 ∧
      mdiCommand [false, false, true, false, false, false, true, false, false, false, false, false, false, true] =
        .incompleteFrame (.ended [0x22]) := by decide +kernel

/-! ## Small states -/

/-- What a command leaves; a refused command would leave the state. -/
def after (c : Instr) (s : State) : State :=
  match exec c s with
  | .next t => t
  | .fault f => nomatch f
  | .refused _ => s

/-- The state with one host command waiting in the Command Queue, with tag 9. -/
def asked (c : Command) (s : State) : State :=
  { s with commandQueue := [{ tag := 9, preempt := false, command := c }] }

/-- The record of a host command with tag 9. -/
def tagged9 (c : Command) : CommandRecord := { tag := 9, preempt := false, command := c }

/-- The CREATE of tag 1 in 11.4, as the port takes it: 67 bytes. -/
def createBytes : List Byte :=
  [0x01, 1, 0, 0, 1, 0, 0, 0, 0x03, 0xC0, 0x02, 0x1C, 0, 0, 1, 0, 0, 0, 0, 0, 0x03, 0xC0, 0x02, 0x1C, 0, 0, 0, 0] ++
    List.replicate 39 0

/-- Its parameters: key L0/1, 960 × 540, one destination on plane 0 at (0, 0). -/
def create1 : CreateParams := createAt createBytes

/-- The plane of 11.4: its range ends at 3F47FFh. -/
def plane0 : Plane := { base := 0, pitch := 3840, width := 1920, height := 1080, pixelSize := .two }

/-- A link that is LOCKED. -/
def lockedLink : Link := { Link.reset with state := .locked, enable := true }

/-- Plane 0 defined and L0 LOCKED, with no record. -/
def ready : State :=
  { State.reset with planes := put State.reset.planes 0 (some plane0), links := put State.reset.links 0 lockedLink }

/-- The ACTIVE slot of record 0 in 11.4. -/
def slot0 : Slot := { phase := .active, width := 960, height := 540, entries := [0] }

/-- Record 0 of 11.4: key L0/1, one slot. -/
def camera : Placement := create1.placement { link := 0, channel := 1 } [0]

/-- Its destination. -/
def entry0 : Entry :=
  { owner := 0, slot := .a, plane := 0, x := 0, y := 0, width := 960, height := 540, cropX := 0, cropY := 0 }

/-- `ready` with record 0 as `p`, with generation 3 and destination entry 0. -/
def withRecord (p : Placement) : State :=
  { ready with
    records := put ready.records 0 { generation := 3, placement := some p }
    keyIndex := if p.drain.isNone then put ready.keyIndex p.key.place (some 0) else ready.keyIndex
    pool := put ready.pool 0 (some entry0) }

/-- One LIVE record. -/
def live : State := withRecord camera

/-- The handle of record 0. -/
def handle0 : Handle := { index := 0, generation := 3 }

/-- A stale handle of record 0. -/
def handleOld : Handle := { index := 0, generation := 2 }

/-- A frame of record 0's size that claims it. -/
def frame0 : Frame :=
  { phase := .placing 0, width := 960, height := 540, last := none, accepted := 0, damaged := false }

/-- `p` claimed by its own frame context, where a frame `f` is open. -/
def claimedBy (p : Placement) (f : Frame) : State :=
  { withRecord { p with claim := some { link := 0, channel := 1 } } with
    links := put ready.links 0 (lockedLink.withContext 1 (some f)) }

/-- A burst of record 0, line 0. -/
def burst0 : Burst := { address := 0, length := 4, data := [1, 2, 3, 4], record := 0, slot := .a, link := 0 }

/-- A burst of record 5, Slot B. -/
def burst5 : Burst := { burst0 with record := 5, slot := .b }

/-- The Burst Queue with its head outstanding under issue number 15. -/
def queueing (bs : List Burst) (s : State) : State := { s with bursts := bs, timer := some 64 }

/-- The engine in SCAN for a command of the Command Queue. -/
def scanning (c : Command) (at_ : ScanPosition) (s : State) : State :=
  { s with
    engine := .scan { source := .commandQueue, request := tagged9 c, position := at_ }
    reserved := 1 }

/-- The engine in FENCE. -/
def fencing (op : FenceOperation) (s : State) : State := { s with engine := .fence op, reserved := 1 }

/-! ## The management port -/

theorem test_powerOn : after .powerOn live = State.reset := by rfl

/-- A frame cut by power-on, its MCS# low still: a TABLE-RESET clocked then is not taken; once MCS# has risen the next
one is. -/
theorem test_powerOn_selected :
    (after (.incompleteFrame (.underWay [0x10, 3])) live).frame = .inProgress [0x10, 3] ∧
      after .tableReset (after .powerOn { live with frame := .inProgress [0x10, 3] }) =
        { State.reset with frame := .ignored } ∧
      after (.incompleteFrame (.ended [])) { State.reset with frame := .ignored } = State.reset ∧
      (after .tableReset State.reset).reply = [0xA0] :=
  ⟨by rfl, by rfl, by rfl, by rfl⟩

theorem test_incompleteFrame :
    after (.incompleteFrame (.ended [0x10, 3])) { live with frame := .inProgress [0x10] } = live := by rfl

/-- MCS# rises behind a reply part. -/
theorem test_incompleteFrame_replied :
    after (.incompleteFrame .replied) { live with frame := .replying } = live ∧
      after (.incompleteFrame .replied) { live with frame := .ignored } = { live with frame := .ignored } :=
  ⟨by rfl, by rfl⟩

/-- MDO: at high impedance with no frame and while MCS# is ignored, and in the reply part of a FLUSH-QUEUE the bits of
A0h, most significant first. -/
theorem test_mdo :
    State.reset.mdo = .highImpedance ∧ { live with frame := .ignored }.mdo = .highImpedance ∧
      { live with frame := .inProgress [0x10] }.mdo = .sending [] ∧
      (after .flushQueue live).mdo = .sending [true, false, true, false, false, false, false, false] ∧
      (after (.incompleteFrame .replied) (after .flushQueue live)).mdo = .highImpedance := by decide +kernel

theorem test_malformed :
    after (.malformed 0xFF) live = { live with frame := .replying, reply := [0xAF] } := by rfl

/-- The first CREATE of 11.4 is accepted and stands in the queue with its tag. -/
theorem test_pushCommand :
    after (.pushCommand 67 createBytes) ready =
      { ready with
        frame := .replying
        commandQueue := [{ tag := 1, preempt := false, command := .create create1 }], reply := [0xA0] } := by rfl

/-- A record one byte short of its code's length. -/
theorem test_pushCommand_malformed :
    (after (.pushCommand 66 createBytes) ready).reply = [0xAF] := by rfl

/-- A preempting RETIRE cuts a CREATE's scan (11.7). -/
theorem test_pushPriority :
    after (.pushPriority 6 [0x04, 7, 1, 0, 3, 0]) (scanning (.create create1) .mutualComparison live) =
      { live with
        frame := .replying
        prioritySlot := some { tag := 7, preempt := true, command := .retire handle0 false }
        backup := some (tagged9 (.create create1)), reply := [0xA0] } := by rfl

theorem test_pushPriority_busy :
    (after (.pushPriority 3 [0x0C, 1, 0]) { live with prioritySlot := some (tagged9 .sync) }).reply = [0xA2] := by rfl

theorem test_withdrawPriority :
    after .withdrawPriority { live with prioritySlot := some (tagged9 .sync) } =
      { live with frame := .replying, reply := [0xA5, 9, 0x0C] } := by rfl

theorem test_flushQueue :
    after .flushQueue { asked .sync live with backup := some (tagged9 .sync) } =
      { live with frame := .replying, reply := [0xA0] } := by rfl

/-- An OK result with a handle and an empty payload is 7 bytes (R189). -/
theorem test_popResponse :
    (after .popResponse { live with responses := [.result 9 0x03 .ok (some handle0) .empty] }).reply =
      [7, 0x01, 9, 0x03, 0x00, 0x01, 0, 3] := by rfl

theorem test_popResponse_empty :
    after .popResponse live = { live with frame := .replying, reply := [0] } := by rfl

/-- The counts of READ-STATUS with one record LIVE. -/
theorem test_readStatus :
    (after .readStatus live).reply.length = 17 ∧ byteAt (after .readStatus live).reply 5 = 63 ∧
      byteAt (after .readStatus live).reply 6 = 127 := by decide +kernel

theorem test_readLink :
    (after (.readLink 5) { live with links := put live.links 5 { Link.reset with attention := true } }).links =
      live.links := by rfl

theorem test_readLink_malformed : (after (.readLink 6) live).reply = [0xAF, 0, 0, 0, 0] := by rfl

theorem test_readFramestore :
    after .readFramestore { live with fsAttention := true, fsRefused := 0x0102, fsTimeout := 3 } =
      { live with
        frame := .replying, fsRefused := 0x0102, fsTimeout := 3, reply := [1, 1, 2, 0, 3, 0, 64] } := by rfl

theorem test_setPortControl :
    after (.setPortControl 0x0D 4 0) live =
      { live with
        frame := .replying, irqMask := 0x0D, refillMark := 4, gateOpen := false, reply := [0xA0] } := by rfl

theorem test_setPortControl_malformed : (after (.setPortControl 0 16 0) live).reply = [0xAF] := by rfl

/-- The record's generation is raised; planes and link states stay. -/
theorem test_tableReset :
    look (after .tableReset live).records 0 = { generation := 4, placement := none } ∧
      (after .tableReset live).planes = live.planes ∧ look (after .tableReset live).links 0 = lockedLink := by
  decide +kernel

/-! ## Starts -/

/-- The CREATE of 11.4 enters its scan. -/
theorem test_create :
    (after .create (asked (.create create1) ready)).engine =
      (scanning (.create create1) .mutualComparison ready).engine := by decide +kernel

theorem test_create_duplicateKey :
    (after .create (asked (.create create1) live)).responses =
      [.result 9 0x01 .duplicateKey none (.record 0)] := by rfl

/-- The AMEND of 11.5: source 1280 × 720, one destination at (0, 540), crop (160, 90). -/
def amend1 : AmendParams where
  handle := handle0
  width := 1280
  height := 720
  count := 1
  dests := #v[{ plane := 0, x := 0, y := 540, width := 960, height := 540, cropX := 160, cropY := 90 },
    destAt [] 0, destAt [] 0, destAt [] 0]

theorem test_amend :
    (after .amend (asked (.amend amend1) live)).engine =
      (scanning (.amend amend1) .mutualComparison live).engine := by decide +kernel

theorem test_amend_stale :
    (after .amend (asked (.amend { amend1 with handle := handleOld }) live)).responses =
      [.result 9 0x02 .staleHandle (some handleOld) .empty] := by rfl

/-- The plane of 11.4 as a DEFINE-PLANE. -/
def define0 : PlaneParams := { plane := 0, base := 0, pitch := 3840, width := 1920, height := 1080, pixelSize := 2 }

/-- With the pool empty the scan is its range comparison alone (11.1). -/
theorem test_definePlane :
    after .definePlane (asked (.definePlane define0) ready) =
      scanning (.definePlane define0) .planeRanges ready := by rfl

theorem test_definePlane_badParameter :
    (after .definePlane (asked (.definePlane { define0 with pitch := 3841 }) ready)).responses =
      [.result 9 0x07 .badParameter none .empty] := by rfl

/-- New attributes for record 0. -/
def attributes0 : AttributeParams :=
  { handle := handle0, hold := true, interval := 40, retireOnSilence := true, labelPresent := true, label := 7 }

theorem test_setAttributes :
    (after .setAttributes (asked (.setAttributes attributes0) live)).placement? 0 =
      some { camera with hold := true, interval := some 40, retireOnSilence := true, label := some 7 } := by rfl

theorem test_retire :
    after .retire (asked (.retire handle0 false) live) =
      { withRecord { camera with drain := some .retire } with
        releaseSet := put live.releaseSet 0 true
        responses := [.result 9 0x04 .ok (some handle0) (.retired none false)] } := by rfl

/-- A claimed record with the abort option sends the request. -/
theorem test_retire_abort :
    (after .retire (asked (.retire handle0 true) (claimedBy camera frame0))).aborts =
      [{ record := 0, context := { link := 0, channel := 1 } }] := by rfl

theorem test_lookup :
    after .lookup (asked (.lookup 0 1) live) =
      { live with responses := [.result 9 0x05 .ok (some handle0) (.found .fresh false)] } := by rfl

theorem test_lookup_noSuchKey :
    (after .lookup (asked (.lookup 0 2) live)).responses = [.result 9 0x05 .noSuchKey none .empty] := by rfl

theorem test_query :
    after .query (asked (.query 0) live) =
      { live with
        responses := [.result 9 0x06 .ok none (.snapshot 0 (look live.records 0) [(0, entry0)] [])] } := by rfl

/-- Link 5 enabled in single mode with 4-byte pixels. -/
def link5 : LinkParams := { link := 5, enable := true, mode := 1, pixelSize := 4 }

theorem test_configureLink :
    after .configureLink (asked (.configureLink link5) live) =
      { live with
        links := put live.links 5
          { Link.reset with state := .seeking, enable := true, single := true, pixelSize := .four }
        responses := [.result 9 0x08 .ok none (.linkConfigured 5 true true .four .seeking)] } := by rfl

theorem test_configureLink_inUse :
    (after .configureLink (asked (.configureLink { link5 with link := 0 }) live)).responses =
      [.result 9 0x08 .linkInUse none (.record 0)] := by rfl

theorem test_configureFramestore :
    after .configureFramestore (asked (.configureFramestore 255) live) =
      { live with ackTimeout := 255, responses := [.result 9 0x09 .ok none (.timeout 255)] } := by rfl

theorem test_setLevels :
    (after .setLevels (asked (.setLevels #v[7, 0, 1, 2, 3]) live)).levels = #v[7, 0, 1, 2, 3] := by decide +kernel

theorem test_setLevels_badParameter :
    after .setLevels (asked (.setLevels #v[0, 8, 9, 0, 0]) live) =
      { live with responses := [.result 9 0x0A .badParameter none (.sourceNumber 1)] } := by rfl

theorem test_readCounters :
    after .readCounters (asked (.readCounters { kind := 2, target0 := 0, target1 := 0, clear := true })
      { live with fsRefused := 5, fsTimeout := 6 }) =
      { live with responses := [.result 9 0x0B .ok none (.portCounters true 5 6)] } := by rfl

theorem test_sync :
    after .sync (asked .sync live) = { live with responses := [.result 9 0x0C .ok none .empty] } := by rfl

theorem test_sync_fence :
    after .sync (asked .sync (queueing [burst0, burst5] live)) =
      fencing { source := .commandQueue, request := .sync (tagged9 .sync), awaited := [true, true], target := [] }
        (queueing [burst0, burst5] live) := by rfl

/-! ## Scans, fences and their completions -/

/-- A scan with no pair and an empty pool ends clear and completes in the same event. -/
theorem test_scanStep :
    after .scanStep (scanning (.create create1) .mutualComparison ready) =
      { withRecord camera with
        records := put ready.records 0 { generation := 0, placement := some camera }
        responses := [.result 9 0x01 .ok (some { index := 0, generation := 0 }) (.created [0])] } := by rfl

/-- With an entry in the pool the mutual comparison goes on to visit it. -/
theorem test_scanStep_goesOn :
    after .scanStep (scanning (.create create1) .mutualComparison live) =
      scanning (.create create1) (.visit 0) live := by rfl

theorem test_createCompletion :
    (after .createCompletion (scanning (.create create1) (.visit 0) live)).responses =
      [.result 9 0x01 .overlap none (.poolOverlap 0 0)] := by rfl

/-- The AMEND of 11.5 on an unclaimed record flips at once. -/
theorem test_amendCompletion :
    (after .amendCompletion (scanning (.amend amend1) (.visit 0) live)).responses =
      [.result 9 0x02 .ok (some handle0) (.amended .b true [1])] := by rfl

theorem test_definePlaneCompletion :
    after .definePlaneCompletion (scanning (.definePlane define0) .planeRanges State.reset) =
      { State.reset with
        planes := put State.reset.planes 0 (some plane0)
        responses := [.result 9 0x07 .ok none (.planeDefined 0 true)] } := by rfl

/-- A SYNC that waits for one burst. -/
def syncing : State :=
  fencing { source := .commandQueue, request := .sync (tagged9 .sync), awaited := [true], target := [] }
    (queueing [burst5] live)

theorem test_syncCompletion :
    after (.syncCompletion (.acknowledged 15)) syncing =
      { live with responses := [.result 9 0x0C .ok none .empty] } := by rfl

/-- Record 0 with Slot A SUPERSEDED and Slot B ACTIVE. -/
def flipped : Placement :=
  { camera with
    slotA := some { slot0 with phase := .superseded }
    slotB := some { phase := .active, width := 1280, height := 720, entries := [2] } }

/-- The COMMIT of 11.5 while one burst of the old slot is queued. -/
def committing : State :=
  fencing { source := .commitSet, request := .commit 0, awaited := [true], target := [.a] }
    (queueing [burst0] (withRecord flipped))

theorem test_commitCompletion :
    after (.commitCompletion (.acknowledged 15)) committing =
      { withRecord { flipped with slotA := none } with
        pool := ready.pool, responses := [.amendApplied handle0 none] } := by rfl

/-- Record 0 DRAINING. -/
def draining : Placement := { camera with drain := some .retire }

/-- A RELEASE that waits for one burst. -/
def releasing : State :=
  fencing { source := .releaseSet, request := .release 0, awaited := [true], target := [.a] }
    (queueing [burst0] (withRecord draining))

theorem test_releaseCompletion :
    after (.releaseCompletion .timedOut) releasing =
      { ready with
        records := put ready.records 0 { generation := 4, placement := none }
        fsTimeout := 1, fsAttention := true, responses := [.freed handle0 .retire none] } := by rfl

/-- A SILENT record with its Expiry bit set. -/
def silentRecord (p : Placement) : State :=
  { withRecord { p with interval := some 5, age := 5, activity := .silent } with
    expirySet := put ready.expirySet 0 true }

theorem test_expire :
    after .expire (silentRecord camera) =
      { silentRecord camera with
        expirySet := ready.expirySet, responses := [.silent handle0 false none] } := by rfl

theorem test_commit :
    after .commit { queueing [burst0] (withRecord flipped) with commitSet := put ready.commitSet 0 true } =
      committing := by rfl

theorem test_release :
    after .release { queueing [burst0] (withRecord draining) with releaseSet := put ready.releaseSet 0 true } =
      releasing := by rfl

/-! ## Links and frames -/

/-- A CLOSE of channel 0, with the check byte that R190 works out. -/
def closeHeader : Vector Byte 8 := #v[0xB7, 0x4E, 0x30, 0, 0, 0, 0, 0x72]

/-- The header of `closeHeader`, field by field. -/
theorem test_header_close :
    parseHeader closeHeader =
      some { kind := .closeFrame, channel := 0, fieldA := 0, fieldB := 0, payload := [] } := by decide +kernel

/-- The remainders of R190 after each byte. -/
theorem test_header_remainders :
    ([1, 2, 3, 4, 5, 6, 7].map fun n => crc8 (closeHeader.toList.take n)) =
      [0x0C, 0xC9, 0xE1, 0xA9, 0x56, 0xA5, 0x72] := by rfl

/-- L0 in SEEKING with a good run of `n`. -/
def seeking (n : Nat) : State :=
  { State.reset with
    links := put State.reset.links 0 { Link.reset with state := .seeking, enable := true, goodRun := n } }

/-- The fourth good header locks. -/
theorem test_segmentArrival :
    look (after (.segmentArrival 0 closeHeader []) (seeking 3)).links 0 = { lockedLink with goodRun := 4 } := by
  decide +kernel

/-- A CLOSE with no frame open is counted NO_CONTEXT. -/
theorem test_segmentArrival_noContext :
    look (after (.segmentArrival 0 closeHeader []) live).links 0 =
      { lockedLink with counters := #v[0, 0, 1, 0, 0, 0, 0, 0] } := by decide +kernel

/-- The OPEN of 11.4: record 0 is heard and claimed, context 1 is PLACING. -/
theorem test_openFrame :
    after (.openFrame 0 (.joins 1 960 540)) live = claimedBy { camera with activity := .flowing } frame0 := by rfl

theorem test_openFrame_unrouted :
    (look (after (.openFrame 0 (.joins 2 960 540)) live).links 0).counters = #v[0, 0, 0, 0, 0, 0, 1, 0] := by rfl

/-- The CLOSE of 11.4: all 540 lines were accepted, and record 0 counts one frame placed. -/
theorem test_closeFrame :
    after (.closeFrame 0 (.joins 1 0 0)) (claimedBy camera { frame0 with accepted := 540, last := some 539 }) =
      withRecord { camera with counters := { placed := 1, held := 0, refused := 0, damaged := 0 } } := by rfl

/-- A CLOSE with a line missing. -/
theorem test_closeFrame_damaged :
    after (.closeFrame 0 (.joins 1 0 0)) (claimedBy camera { frame0 with accepted := 539 }) =
      withRecord { camera with counters := { placed := 0, held := 0, refused := 0, damaged := 1 } } := by rfl

/-- A LINE of record 0's frame, with a payload of zeros. -/
def lineSegment (n : U16) : Segment :=
  { kind := .line, channel := 1, fieldA := n, fieldB := 960, payload := List.replicate 1920 0 }

/-- The state with a frame open and some segments waiting. -/
def waiting (f : Frame) (gs : List Segment) : State :=
  { claimedBy camera f with
    links := put ready.links 0 { lockedLink.withContext 1 (some f) with fifo := gs } }

/-- Line 539 of 11.4: one burst at 1F9500h of 1920 bytes, issued with number 0. -/
theorem test_grant :
    (after .grant (waiting { frame0 with last := some 538, accepted := 539 } [lineSegment 539])).framestoreOutput.map
        (fun o => (o.address, o.length, o.issueNumber)) = some (0x1F9500, 1920, 0) ∧
      (after .grant (waiting { frame0 with last := some 538, accepted := 539 } [lineSegment 539])).context? 0 1 =
        some { frame0 with last := some 539, accepted := 540 } := by decide +kernel

/-- A LINE that waits behind a full Burst Queue is granted in the event of the departure that makes room for it. -/
theorem test_acknowledgement_grants :
    let s := queueing (List.replicate 32 burst5) (waiting { frame0 with last := some 538, accepted := 539 }
      [lineSegment 539])
    s.granted = none ∧ (after .grant s).context? 0 1 = s.context? 0 1 ∧
      (after (.acknowledgement 15) s).context? 0 1 = some { frame0 with last := some 539, accepted := 540 } ∧
      (after (.acknowledgement 15) s).bursts.length = 32 ∧ (after (.acknowledgement 15) s).lastGranted = 0 := by
  decide +kernel

/-- A line at or below the last accepted one is counted ORDER and damages the frame. -/
theorem test_grant_order :
    look (after .grant (waiting { frame0 with last := some 1 } [lineSegment 1])).links 0 =
      { lockedLink.withContext 1 (some { frame0 with last := some 1, damaged := true }) with
        counters := #v[0, 0, 0, 0, 1, 0, 0, 0] } := by rfl

/-- A record being retired whose frame is asked to stop. -/
def aborting : State :=
  { claimedBy draining frame0 with aborts := [{ record := 0, context := { link := 0, channel := 1 } }] }

theorem test_abortRequest :
    after (.abortRequest 0 0 1) aborting =
      { withRecord { draining with counters := { placed := 0, held := 0, refused := 0, damaged := 1 } } with
        releaseSet := put ready.releaseSet 0 true
        links := put ready.links 0 { lockedLink with counters := #v[0, 0, 0, 0, 0, 0, 0, 1] } } := by rfl

/-! ## The frame-store port and the Silence Monitor -/

theorem test_acknowledgement :
    after (.acknowledgement 15) (queueing [burst0, burst5] live) =
      { queueing [burst5] live with issueNumber := 0 } := by rfl

theorem test_acknowledgement_ignored :
    after (.acknowledgement 14) (queueing [burst0] live) = queueing [burst0] live := by rfl

theorem test_errorResponse :
    after (.errorResponse 15) (queueing [burst0] { live with fsRefused := 0xFFFF }) =
      { live with fsRefused := 0xFFFF, fsAttention := true } := by rfl

theorem test_ackTimeout :
    after .ackTimeout (queueing [burst0] live) = { live with fsTimeout := 1, fsAttention := true } := by rfl

/-- Record 0 with an interval of 5 and an age of `n`. -/
def aging (n : U16) : Placement := { camera with interval := some 5, age := n, activity := .flowing }

theorem test_millisecondStep :
    (after .millisecondStep (withRecord (aging 3))).placement? 0 = some (aging 4) ∧
      (after .millisecondStep (withRecord (aging 3))).expirySet = ready.expirySet := by decide +kernel

theorem test_millisecondStep_expires :
    (after .millisecondStep (withRecord (aging 4))).placement? 0 = (silentRecord camera).placement? 0 ∧
      (after .millisecondStep (withRecord (aging 4))).expirySet = (silentRecord camera).expirySet := by decide +kernel

/-- An expiry is the boundary at which it happens; a record that is not at its last step does not expire. -/
theorem test_expiry :
    (after (.expiry 0) (withRecord (aging 4))).placement? 0 = (silentRecord camera).placement? 0 ∧
      (after (.expiry 0) (withRecord (aging 4))).expirySet = (silentRecord camera).expirySet ∧
      (after (.expiry 0) (withRecord (aging 4))).timebase = 1 ∧
      after (.expiry 0) (withRecord (aging 3)) = withRecord (aging 3) := by decide +kernel

/-! ## The step -/

/-- A step takes the command at the front of the queue; no word of the table spells a command. -/
theorem test_step :
    (match Sys2Proof.core.step { live with pending := [.millisecondStep, .powerOn] } with
     | .next (t : State) => t.pending
     | _ => []) = [.powerOn] ∧ decodeTableWord 0 0 = none ∧ live.withFetchWord 8 1 = live := by decide +kernel

/-! ## The hypotheses of the statements are met

`test_meets_<Name>` gives states and operands that meet the hypotheses of `Obligations.<Name>` together, with a
line for each clause, at the ends of the ranges where a clause has a range. A statement with no hypotheses has no
theorem here. -/

/-- A start in the form that `decide` can check. -/
theorem starts {s : State} {x : Source} {q : Request} (h : s.arbitrate = some (x, q)) : s.Starts x q :=
  (s.arbitrate_eq_some x q).mp h

/-- The start of the host command that waits in the queue. -/
theorem starts_asked {c : Command} {s : State}
    (h : (asked c s).arbitrate = some (.commandQueue, .command (tagged9 c)) := by decide +kernel) :
    (asked c s).Starts .commandQueue (.command (tagged9 c)) := starts h

theorem test_meets_StepRunsTheFrontCommand :
    { live with pending := [.powerOn] }.pending = .powerOn :: [] ∧ live.pending = [] := ⟨rfl, rfl⟩

theorem test_meets_PowerOnLeavesThePowerOnValues :
    live.frame = .idle ∧ { live with frame := .inProgress [0x10] }.frame ≠ .idle ∧
      { live with frame := .replying }.frame ≠ .idle ∧ (∃ t, exec .powerOn live = .next t) ∧
      { live with frame := .ignored }.frame ≠ .idle := ⟨rfl, by decide, by decide, ⟨_, rfl⟩, by decide⟩

theorem test_meets_FramesFollowTheChipSelect :
    { live with frame := .replying }.frame = .replying ∧ live.frame ≠ .replying ∧ live.frame = .idle ∧
      { live with frame := .inProgress [0x10] }.frame = .inProgress [0x10] ∧ ([] : List Bool).length < 8 ∧
      (List.replicate 7 true).length < 8 ∧ ([] : List Byte).length < (1 : Byte).toNat ∧ (List.replicate 254 (0 : Byte)).length < (255 : Byte).toNat ∧
      { live with frame := .ignored }.frame = .ignored ∧ live.frame ≠ .ignored ∧
      requestIncomplete [] = true ∧ requestIncomplete [0x30, 3, 4] = true ∧ (0 : Byte).toNat ≤ ([] : List Byte).length ∧
      (255 : Byte).toNat ≤ (List.replicate 255 (0 : Byte)).length := by
  decide +kernel

/-- The ways to stand that the statements of transactions ask for: no frame, and a frame in its request part or in its
reply part. -/
theorem test_meets_frame :
    live.frame ≠ .ignored ∧ { live with frame := .inProgress [0x10] }.frame ≠ .ignored ∧
      { live with frame := .replying }.frame ≠ .ignored ∧ ready.frame ≠ .ignored := by
  decide +kernel

theorem test_meets_MalformedChangesNothing :
    live.frame ≠ .ignored ∧
    ((0x00 : Byte) ∉ transactionCodes ∧ (0xFF : Byte) ∉ transactionCodes) ∧
    ((4 : Byte).toNat ≤ [(0x0C : Byte), 1, 0, 0].length ∧
      recordLength? (byteAt ([(0x0C : Byte), 1, 0, 0].take (4 : Byte).toNat) 0) ≠ some (4 : Byte).toNat) ∧
    ((0 : Byte).toNat ≤ ([] : List Byte).length ∧
      recordLength? (byteAt (([] : List Byte).take (0 : Byte).toNat) 0) ≠ some (0 : Byte).toNat) ∧
    5 < (6 : Byte).toNat ∧ 15 < (16 : Byte).toNat := by decide +kernel

/-- Each of the twelve codes with its length, the ends of the ranges of frames, and a snapshot of either kind. -/
theorem test_meets_RecordsFollowTheFormats :
    (([] : List Byte).length = (0 : Byte).toNat ∧ (List.replicate 255 (0 : Byte)).length = (255 : Byte).toNat ∧
      (0x00 : Byte) ∉ ([0x10, 0x11, 0x12, 0x13, 0x20, 0x21, 0x22, 0x23, 0x30, 0x3F] : List Byte) ∧
      (0xFF : Byte) ∉ ([0x10, 0x11, 0x12, 0x13, 0x20, 0x21, 0x22, 0x23, 0x30, 0x3F] : List Byte) ∧
      ([] : List Byte).length < (1 : Byte).toNat ∧ ([0, 0] : List Byte).length < 3) ∧
    (look live.records 63).placement = none ∧ (look live.records 0).placement = some camera ∧
    ∀ e ∈ [((0x01 : Byte), 67), (0x02, 62), (0x03, 10), (0x04, 6), (0x05, 5), (0x06, 4), (0x07, 17), (0x08, 7),
      (0x09, 4), (0x0A, 8), (0x0B, 7), (0x0C, 3)],
      (parseRecord (e.1 :: List.replicate (e.2 - 1) 0)).isSome = true := by decide +kernel

theorem test_meets_PushCommandAppendsBelowSixteen :
    { live with commandQueue := List.replicate 15 (tagged9 .sync) }.frame ≠ .ignored ∧
    { live with commandQueue := List.replicate 16 (tagged9 .sync) }.frame ≠ .ignored ∧
    recordLength? (byteAt createBytes 0) = some createBytes.length ∧
    (67 : Byte).toNat ≤ createBytes.length ∧
    parseRecord (createBytes.take (67 : Byte).toNat) =
      some { tag := 1, preempt := false, command := .create create1 } ∧
    { live with commandQueue := List.replicate 15 (tagged9 .sync) }.commandQueue.length < 16 ∧
    16 ≤ { live with commandQueue := List.replicate 16 (tagged9 .sync) }.commandQueue.length := by decide +kernel

/-- A scan for the Command Queue with the Priority Slot at the same level. -/
def levelled : State := scanning (.create create1) .mutualComparison { live with levels := #v[4, 1, 2, 3, 4] }

theorem test_meets_PushPriorityFillsTheSlotAndMayCancel :
    ({ live with prioritySlot := some (tagged9 .sync) }.frame ≠ .ignored ∧
      (scanning (.create create1) .mutualComparison live).frame ≠ .ignored ∧ levelled.frame ≠ .ignored) ∧
    (3 : Byte).toNat ≤ [(0x0C : Byte), 1, 1].length ∧
    parseRecord ([(0x0C : Byte), 1, 1].take (3 : Byte).toNat) =
      some { tag := 1, preempt := true, command := .sync } ∧
    parseRecord ([(0x0C : Byte), 1, 0].take (3 : Byte).toNat) =
      some { tag := 1, preempt := false, command := .sync } ∧
    { live with prioritySlot := some (tagged9 .sync) }.prioritySlot ≠ none ∧
    (∃ op, (scanning (.create create1) .mutualComparison live).engine = .scan op ∧
      (scanning (.create create1) .mutualComparison live).level .prioritySlot <
        (scanning (.create create1) .mutualComparison live).level op.source) ∧
    (∀ op, levelled.engine = .scan op → levelled.level op.source ≤ levelled.level .prioritySlot) := by
  refine ⟨by decide +kernel, by decide, by decide +kernel, by decide +kernel, by decide, ⟨_, rfl, by decide⟩, ?_⟩
  intro op h
  cases h
  decide

theorem test_meets_WithdrawAndFlushEmptyTheirSources :
    { live with prioritySlot := some (tagged9 .sync) }.frame ≠ .ignored ∧ live.frame ≠ .ignored ∧
      { live with prioritySlot := some (tagged9 .sync) }.prioritySlot = some (tagged9 .sync) ∧
      live.prioritySlot = none := ⟨by decide, by decide, rfl, rfl⟩

/-- A full Response Queue: 31 filled entries and a reserved one. -/
def fullResponses : State :=
  fencing { source := .commandQueue, request := .sync (tagged9 .sync), awaited := [true], target := [] }
    (queueing [burst5] { live with responses := List.replicate 31 (.silent handle0 false none) })

theorem test_meets_PopResponseTakesTheOldest :
    fullResponses.frame ≠ .ignored ∧ live.frame ≠ .ignored ∧
    fullResponses.responses = .silent handle0 false none :: List.replicate 30 (.silent handle0 false none) ∧
      fullResponses.responses.length + fullResponses.reserved ≤ 32 ∧ live.responses = [] := by
  refine ⟨by decide, by decide, rfl, by decide, rfl⟩

theorem test_meets_ReadStatusReportsOneView : live.frame ≠ .ignored := test_meets_frame.1

theorem test_meets_TableResetClearsTheTableSide : fullResponses.frame ≠ .ignored := by decide

theorem test_meets_ReadingAnAttentionFlagClearsIt :
    live.frame ≠ .ignored ∧ (0 : LinkNo).val = (0 : Byte).toNat ∧ (5 : LinkNo).val = (5 : Byte).toNat := by decide

theorem test_meets_SetPortControlWritesAllThree :
    live.frame ≠ .ignored ∧ (0 : Fin 16).val = (0 : Byte).toNat ∧ (15 : Fin 16).val = (15 : Byte).toNat := by decide

/-- A SYNC waits, and the Response Queue has one free entry. -/
def oneFree : State := asked .sync { live with responses := List.replicate 31 (.silent handle0 false none) }

theorem test_meets_TheArbiterChoosesExactlyOne :
    oneFree.engine = .idle ∧ oneFree.responses.length + oneFree.reserved < 32 ∧ (∃ x q, oneFree.offer x = some q) ∧
    Instr.sync ∈ startCommands ∧ fullResponses.engine ≠ .idle ∧
    32 ≤ fullResponses.responses.length + fullResponses.reserved ∧ (∀ x, live.offer x = none) ∧
    Instr.create ∈ startCommands ∧ oneFree.Starts .commandQueue (.command (tagged9 .sync)) ∧
    Source.commandQueue.startedBy (.command (tagged9 .sync)) ≠ some .create := by
  refine ⟨rfl, by decide, ⟨.commandQueue, .command (tagged9 .sync), rfl⟩, by decide, by decide, by decide, ?_,
    by decide, starts (by decide +kernel), by decide⟩
  intro x
  cases x <;> decide +kernel

/-- The set that holds record 63 alone. -/
def last63 : Vector Bool 64 := put (Vector.replicate 64 false) 63 true

theorem test_meets_SourcesOfferAndGiveUpRequests :
    (look last63 63 = true ∧ ∀ j, j < 63 → look last63 j = false) ∧
    { live with releaseSet := last63, commitSet := last63, expirySet := last63 }.offer .releaseSet =
      some (.internal 63) ∧
    { live with releaseSet := last63, commitSet := last63, expirySet := last63 }.offer .commitSet =
      some (.internal 63) ∧
    { live with releaseSet := last63, commitSet := last63, expirySet := last63 }.offer .expirySet =
      some (.internal 63) ∧
    { live with backup := some (tagged9 .sync) }.backup = some (tagged9 .sync) ∧
    { live with gateOpen := false }.backup = none ∧ { live with gateOpen := false }.gateOpen = false ∧
    live.backup = none ∧ live.gateOpen = true := by decide +kernel

/-- A state of the tests in which record 0 is DRAINING and unclaimed. -/
def drainingState : State := withRecord draining

/-- A handle whose index is above 63. -/
def handle64 : Handle := { index := 64, generation := 0 }

/-- A handle of a FREE record. -/
def handle63 : Handle := { index := 63, generation := 0 }

/-- A READ-COUNTERS of a record by a handle. -/
def countersOf (h : Handle) (clear : Bool) : CounterParams :=
  { kind := 0, target0 := h.index, target1 := h.generation, clear := clear }

theorem test_meets_HandlesAreCheckedFirst :
    ((asked (.amend { amend1 with handle := handle64 }) live).Starts .commandQueue
        (.command (tagged9 (.amend { amend1 with handle := handle64 }))) ∧
      (asked (.amend { amend1 with handle := handle64 }) live).Stale handle64) ∧
    ((asked (.setAttributes { attributes0 with handle := handle63 }) live).Starts .commandQueue
        (.command (tagged9 (.setAttributes { attributes0 with handle := handle63 }))) ∧
      (asked (.setAttributes { attributes0 with handle := handle63 }) live).Stale handle63) ∧
    ((asked (.retire handleOld true) live).Starts .commandQueue (.command (tagged9 (.retire handleOld true))) ∧
      (asked (.retire handleOld true) live).Stale handleOld) ∧
    ((asked (.amend amend1) drainingState).Starts .commandQueue (.command (tagged9 (.amend amend1))) ∧
      (asked (.amend amend1) drainingState).Names handle0 0 draining) ∧
    ((asked (.setAttributes attributes0) drainingState).Starts .commandQueue
        (.command (tagged9 (.setAttributes attributes0))) ∧
      (asked (.setAttributes attributes0) drainingState).Names handle0 0 draining) ∧
    ((asked (.retire handle0 true) drainingState).Starts .commandQueue (.command (tagged9 (.retire handle0 true))) ∧
      (asked (.retire handle0 true) drainingState).Names handle0 0 draining) ∧
    draining.drain ≠ none ∧
    ((asked (.readCounters (countersOf handleOld true)) live).Starts .commandQueue
        (.command (tagged9 (.readCounters (countersOf handleOld true)))) ∧
      (countersOf handleOld true).kind = 0 ∧ (countersOf handleOld true).handle = handleOld ∧
      (asked (.readCounters (countersOf handleOld true)) live).Stale handleOld) := by
  refine ⟨⟨starts_asked, ?_⟩, ⟨starts_asked, ?_⟩, ⟨starts_asked, ?_⟩,
    ⟨starts_asked, rfl, rfl, rfl⟩, ⟨starts_asked, rfl, rfl, rfl⟩, ⟨starts_asked, rfl, rfl, rfl⟩,
    by decide, starts_asked, rfl, rfl, ?_⟩
  all_goals unfold State.Stale; decide +kernel

/-- The checks of R36 at the ends of their ranges, and POOL_SHORT with one entry too few. -/
theorem test_slotChecks_boundaries :
    geometryFault 4096 4096 1 [destAt [0, 0x1F, 0xFF, 0x1F, 0xFF, 0x10, 0, 0x10, 0] 0] = none ∧
    geometryFault 4097 1 1 [] = some 0 ∧ geometryFault 1 0 1 [] = some 0 ∧ geometryFault 1 1 0 [] = some 0 ∧
    geometryFault 1 1 5 [] = some 0 ∧ geometryFault 1 1 4 [destAt [0, 0, 0, 0, 0, 0, 1, 0, 1] 0] = none ∧
    geometryFault 1 1 1 [destAt [0, 0x20, 0, 0, 0, 0, 1, 0, 1] 0] = some 1 ∧
    geometryFault 1 1 2 [destAt [0, 0, 0, 0, 0, 0, 1, 0, 1] 0, destAt [0, 0, 0, 0, 0, 0, 1, 0, 1, 0, 1] 0] = some 2 ∧
    ready.slotDenial 0 [destAt [0, 0, 0, 0, 0, 0x07, 0x80, 0x04, 0x38] 0] = none ∧
    ready.slotDenial 0 [destAt [0, 0, 1, 0, 0, 0x07, 0x80, 0x04, 0x38] 0] = some (.outsidePlane, .position 1) ∧
    ready.slotDenial 0 [destAt [1] 0] = some (.planeUndefined, .position 1) ∧
    { ready with links := put ready.links 0 { lockedLink with pixelSize := .four } }.slotDenial 0 [destAt [0] 0] =
      some (.pixelMismatch, .position 1) ∧
    { ready with pool := Vector.replicate 128 (some entry0) }.slotDenial 0 [destAt [0] 0] =
      some (.poolShort, .shortage 0 1) := by
  decide +kernel

/-- L0 in single mode. -/
def singleMode (s : State) : State := { s with links := put s.links 0 { lockedLink with single := true } }

/-- Every record in use, with no key in the index. -/
def fullTable : State :=
  { ready with records := Vector.replicate 64 { generation := 0, placement := some draining } }

/-- The CREATE of the last key, L5/15. -/
def createLast : CreateParams := { create1 with link := 5, channel := 15 }

theorem test_meets_CreateStartsOrIsRefused :
    ((asked (.create { create1 with count := 5 }) ready).Starts .commandQueue
        (.command (tagged9 (.create { create1 with count := 5 }))) ∧
      geometryFault 960 540 5 { create1 with count := 5 }.used = some 0) ∧
    ((asked (.create { create1 with link := 6 }) ready).Starts .commandQueue
        (.command (tagged9 (.create { create1 with link := 6 }))) ∧
      5 < { create1 with link := 6 }.link.toNat ∧ 15 < { create1 with channel := 16 }.channel.toNat) ∧
    ((asked (.create create1) (singleMode ready)).Starts .commandQueue (.command (tagged9 (.create create1))) ∧
      (look (asked (.create create1) (singleMode ready)).links 0).single = true ∧ (1 : Channel) ≠ 0) ∧
    ((asked (.create create1) live).Starts .commandQueue (.command (tagged9 (.create create1))) ∧
      look (asked (.create create1) live).keyIndex ({ link := 0, channel := 1 } : Key).place = some 0) ∧
    ((asked (.create create1) fullTable).Starts .commandQueue (.command (tagged9 (.create create1))) ∧
      look (asked (.create create1) fullTable).keyIndex ({ link := 0, channel := 1 } : Key).place = none ∧
      (asked (.create create1) fullTable).tableFree = 0) ∧
    ((asked (.create create1) State.reset).Starts .commandQueue (.command (tagged9 (.create create1))) ∧
      (asked (.create create1) State.reset).slotDenial 0 create1.used = some (.planeUndefined, .position 1)) ∧
    ((asked (.create createLast) ready).Starts .commandQueue (.command (tagged9 (.create createLast))) ∧
      geometryFault createLast.width createLast.height createLast.count createLast.used = none ∧
      (5 : LinkNo).val = createLast.link.toNat ∧ (15 : Channel).val = createLast.channel.toNat ∧
      (look (asked (.create createLast) ready).links 5).single = false ∧
      look (asked (.create createLast) ready).keyIndex ({ link := 5, channel := 15 } : Key).place = none ∧
      (asked (.create createLast) ready).tableFree ≠ 0 ∧
      (asked (.create createLast) ready).slotDenial 5 createLast.used = none) := by
  refine ⟨⟨starts_asked, ?_⟩, ⟨starts_asked, ?_⟩, ⟨starts_asked, ?_⟩, ⟨starts_asked, ?_⟩,
    ⟨starts_asked, ?_⟩, ⟨starts_asked, ?_⟩, ⟨starts_asked, ?_⟩⟩
  all_goals decide +kernel

/-- Record 0 with Slot B STAGED. -/
def stagedB : Placement :=
  { camera with slotB := some { phase := .staged, width := 1280, height := 720, entries := [2] } }

theorem test_meets_AmendStartsOrIsRefused :
    ((asked (.amend amend1) (withRecord stagedB)).Starts .commandQueue (.command (tagged9 (.amend amend1))) ∧
      (asked (.amend amend1) (withRecord stagedB)).Names amend1.handle 0 stagedB ∧ stagedB.drain = none ∧
      stagedB.slotsIn .staged ≠ []) ∧
    ((asked (.amend amend1) (withRecord flipped)).Starts .commandQueue (.command (tagged9 (.amend amend1))) ∧
      (asked (.amend amend1) (withRecord flipped)).Names amend1.handle 0 flipped ∧ flipped.drain = none ∧
      flipped.slotsIn .staged = [] ∧ flipped.slotsIn .superseded ≠ []) ∧
    ((asked (.amend { amend1 with width := 0 }) live).Starts .commandQueue
        (.command (tagged9 (.amend { amend1 with width := 0 }))) ∧
      geometryFault 0 amend1.height amend1.count { amend1 with width := 0 }.used = some 0) ∧
    ((asked (.amend amend1) { live with planes := State.reset.planes }).Starts .commandQueue
        (.command (tagged9 (.amend amend1))) ∧
      (asked (.amend amend1) { live with planes := State.reset.planes }).slotDenial camera.key.link amend1.used =
        some (.planeUndefined, .position 1)) ∧
    ((asked (.amend amend1) live).Starts .commandQueue (.command (tagged9 (.amend amend1))) ∧
      (asked (.amend amend1) live).Names amend1.handle 0 camera ∧ camera.drain = none ∧
      camera.slotsIn .staged = [] ∧ camera.slotsIn .superseded = [] ∧
      geometryFault amend1.width amend1.height amend1.count amend1.used = none ∧
      (asked (.amend amend1) live).slotDenial camera.key.link amend1.used = none) := by
  refine ⟨⟨starts_asked, ⟨rfl, rfl, rfl⟩, ?_⟩, ⟨starts_asked, ⟨rfl, rfl, rfl⟩, ?_⟩,
    ⟨starts_asked, ?_⟩, ⟨starts_asked, ?_⟩, ⟨starts_asked, ⟨rfl, rfl, rfl⟩, ?_⟩⟩
  all_goals decide +kernel

/-- A definition whose memory range ends at FFFFFFFFh. -/
def defineTop : PlaneParams := { define0 with plane := 3, base := 0xFFC0B800 }

theorem test_meets_DefinePlaneStartsOrIsRefused :
    ((asked (.definePlane { define0 with plane := 4 }) live).Starts .commandQueue
        (.command (tagged9 (.definePlane { define0 with plane := 4 }))) ∧
      ¬ { define0 with plane := 4 }.plane.toNat ≤ 3) ∧
    ((asked (.definePlane { define0 with width := 0 }) live).Starts .commandQueue
        (.command (tagged9 (.definePlane { define0 with width := 0 }))) ∧
      { define0 with width := 0 }.plane.toNat ≤ 3 ∧ { define0 with width := 0 }.width = 0) ∧
    ((asked (.definePlane defineTop) live).Starts .commandQueue (.command (tagged9 (.definePlane defineTop))) ∧
      defineTop.plane.toNat ≤ 3 ∧ defineTop.width.toNat ≤ 8192 ∧ 1 ≤ defineTop.height.toNat ∧
      defineTop.height.toNat ≤ 8192 ∧ defineTop.base.toNat % 256 = 0 ∧ 64 ≤ defineTop.pitch.toNat ∧
      defineTop.pitch.toNat ≤ 65536 ∧ defineTop.pitch.toNat % 64 = 0 ∧ defineTop.pixelSize = 2 ∧
      defineTop.width.toNat * defineTop.pixelSize.toNat ≤ defineTop.pitch.toNat ∧
      defineTop.base.toNat + defineTop.pitch.toNat * defineTop.height.toNat - 1 = 0xFFFFFFFF) ∧
    (∀ e, look ready.pool e = none) ∧ look live.pool 0 ≠ none ∧ (∀ f : EntryNo, f < 0 → look live.pool f = none) := by
  refine ⟨⟨starts_asked, ?_⟩, ⟨starts_asked, ?_⟩, ⟨starts_asked, ?_⟩, ?_⟩
  all_goals decide +kernel

/-- The scan in flight of `scanning`. -/
def scanOf (c : Command) (at_ : ScanPosition) : ScanOperation :=
  { source := .commandQueue, request := tagged9 c, position := at_ }

theorem test_meets_AScanGoesStepByStep :
    (scanning (.create create1) .mutualComparison live).engine = .scan (scanOf (.create create1) .mutualComparison) ∧
    (scanning (.create create1) .mutualComparison live).scanVerdict (scanOf (.create create1) .mutualComparison) =
      .goOn (.visit 0) ∧
    (scanning (.create create1) (.visit 0) live).scanVerdict (scanOf (.create create1) (.visit 0)) =
      .conflict .overlap (.poolOverlap 0 0) ∧
    (scanning (.amend amend1) (.visit 0) live).scanVerdict (scanOf (.amend amend1) (.visit 0)) = .clear ∧
    (scanning (.definePlane define0) (.visit 0) live).scanVerdict (scanOf (.definePlane define0) (.visit 0)) =
      .conflict .planeInUse (.entryOwner 0 0) ∧
    (Command.create create1).isCreate = true ∧ (Command.amend amend1).isAmend = true ∧
    (Command.definePlane define0).isDefinePlane = true := by decide +kernel

/-- The destination of `create1`. -/
def d0 : DestDesc := look create1.dests 0

/-- A CREATE with two destinations on the same pixels. -/
def createTwice : CreateParams := { create1 with count := 2, dests := #v[d0, d0, d0, d0] }

theorem test_meets_OverlapScansCompareInOrder :
    ((scanOf (.create createTwice) .mutualComparison).request.command = .create createTwice ∧
      createTwice.dests.toList.take createTwice.count.toNat = [d0, d0] ∧ ready.placement? 0 = none ∧
      (∀ j : RecordNo, ¬ j < 0) ∧
      ∃ d e, 1 ≤ 1 ∧ 1 < 2 ∧ ([d0, d0] : List DestDesc)[1 - 1]? = some d ∧
        ([d0, d0] : List DestDesc)[2 - 1]? = some e ∧ d.rect.shares e.rect = true) ∧
    ((scanOf (.amend amend1) .mutualComparison).request.command = .amend amend1 ∧
      (0 : RecordNo).val = amend1.handle.index.toNat ∧
      ∀ a b, ¬ ∃ d e, 1 ≤ a ∧ a < b ∧ (amend1.dests.toList.take amend1.count.toNat)[a - 1]? = some d ∧
        (amend1.dests.toList.take amend1.count.toNat)[b - 1]? = some e ∧ d.rect.shares e.rect = true) ∧
    (scanOf (.create create1) (.visit 0)).position = .visit 0 ∧ look live.pool 0 = some entry0 ∧
    (none ≠ some entry0.owner ∧ ∃ d ∈ create1.used, d.rect.shares entry0.rect = true) ∧
    (some (0 : RecordNo) = some entry0.owner) ∧ (∀ d ∈ amend1.used, d.rect.shares entry0.rect = false) := by
  refine ⟨⟨rfl, by decide +kernel, by decide +kernel, by decide, _, _, by decide, by decide, rfl, rfl, by decide +kernel⟩,
    ⟨rfl, by decide +kernel, ?_⟩, rfl, by decide +kernel, by decide +kernel, by decide, by decide +kernel⟩
  rintro a b ⟨d, e, ha, hab, -, h, -⟩
  have hl : (amend1.dests.toList.take amend1.count.toNat).length = 1 := by decide +kernel
  rw [List.getElem?_eq_none (by omega)] at h
  cases h

/-- A plane that shares the byte 3F47FFh with `plane0`, as a DEFINE-PLANE of plane 1. -/
def defineClash : PlaneParams := { define0 with plane := 1, base := 0x3F4700 }

theorem test_meets_PlaneScansCompareInOrder :
    (scanOf (.definePlane define0) (.visit 0)).request.command = .definePlane define0 ∧
    (scanOf (.definePlane define0) (.visit 0)).position = .visit 0 ∧
    (scanOf (.definePlane defineClash) .planeRanges).position = .planeRanges ∧
    look live.pool 0 = some entry0 ∧ entry0.plane.val = define0.plane.toNat ∧
    entry0.plane.val ≠ defineClash.plane.toNat ∧ (∀ f : EntryNo, 0 < f → look live.pool f = none) ∧
    ({ define0 with width := 0 } : PlaneParams).width = 0 ∧
    (defineClash.width ≠ 0 ∧ PixelSize.ofByte? defineClash.pixelSize = some .two ∧
      (0 : PlaneNo).val ≠ defineClash.plane.toNat ∧ look live.planes 0 = some plane0 ∧
      defineClash.base.toNat ≤ plane0.base.toNat + plane0.pitch.toNat * plane0.height.toNat - 1 ∧
      plane0.base.toNat ≤ defineClash.base.toNat + defineClash.pitch.toNat * defineClash.height.toNat - 1) ∧
    ¬ ({ defineClash with base := 0x3F4800 } : PlaneParams).base.toNat ≤
      plane0.base.toNat + plane0.pitch.toNat * plane0.height.toNat - 1 := by decide +kernel

theorem test_meets_ThePoolGivesTheLowestAndTakesBack :
    create1.used.length ≤ live.poolFree ∧
    (List.replicate 4 (destAt [] 0)).length ≤
      { live with pool := (Vector.replicate 128 (some entry0)).map fun _ => none }.poolFree ∧
    (0 : EntryNo) ∈ live.allocated create1.used ∨ (1 : EntryNo) ∈ live.allocated create1.used := by decide +kernel

theorem test_meets_CreateCompletionMakesTheLowestFreeRecordLive :
    (scanning (.create create1) .mutualComparison ready).engine = .scan (scanOf (.create create1) .mutualComparison) ∧
    (scanning (.create create1) .mutualComparison ready).scanVerdict (scanOf (.create create1) .mutualComparison) =
      .clear ∧
    (scanning (.create create1) .mutualComparison ready).placement? 0 = none ∧
    (∀ j : RecordNo, j < 0 → (scanning (.create create1) .mutualComparison ready).placement? j ≠ none) ∧
    (0 : LinkNo).val = create1.link.toNat ∧ (1 : Channel).val = create1.channel.toNat := by decide +kernel

/-- Record 0 with its ACTIVE slot in place B. -/
def cameraB : Placement := { camera with slotA := none, slotB := some slot0 }

theorem test_meets_AmendCompletionWritesTheEmptySlot :
    ((scanning (.amend amend1) (.visit 0) live).engine = .scan (scanOf (.amend amend1) (.visit 0)) ∧
      (scanning (.amend amend1) (.visit 0) live).scanVerdict (scanOf (.amend amend1) (.visit 0)) = .clear ∧
      (scanning (.amend amend1) (.visit 0) live).Names amend1.handle 0 camera ∧ camera.slot .b = none ∧
      camera.slot SlotLetter.b.other = some slot0 ∧ slot0.phase = .active ∧ camera.claim = none) ∧
    ((scanning (.amend amend1) (.visit 0) (withRecord cameraB)).Names amend1.handle 0 cameraB ∧
      cameraB.slot .a = none ∧ cameraB.slot SlotLetter.a.other = some slot0) ∧
    ((scanning (.amend amend1) (.visit 0) (claimedBy camera frame0)).scanVerdict
        (scanOf (.amend amend1) (.visit 0)) = .clear ∧
      (scanning (.amend amend1) (.visit 0) (claimedBy camera frame0)).Names amend1.handle 0
        { camera with claim := some { link := 0, channel := 1 } }) := by
  refine ⟨⟨rfl, by decide +kernel, ⟨rfl, rfl, rfl⟩, rfl, rfl, rfl, rfl⟩, ⟨⟨rfl, rfl, rfl⟩, rfl, rfl⟩,
    by decide +kernel, rfl, rfl, rfl⟩

theorem test_meets_DefinePlaneCompletionWritesThePlane :
    (scanning (.definePlane defineTop) .planeRanges ready).engine =
      .scan (scanOf (.definePlane defineTop) .planeRanges) ∧
    (scanning (.definePlane defineTop) .planeRanges ready).scanVerdict (scanOf (.definePlane defineTop) .planeRanges) =
      .clear ∧
    (3 : PlaneNo).val = defineTop.plane.toNat ∧ defineTop.width ≠ 0 ∧
    PixelSize.ofByte? defineTop.pixelSize = some .two ∧
    (scanning (.definePlane { define0 with width := 0 }) .planeRanges ready).scanVerdict
      (scanOf (.definePlane { define0 with width := 0 }) .planeRanges) = .clear := by decide +kernel

theorem test_meets_SetAttributesWritesAllFour :
    (asked (.setAttributes attributes0) live).Starts .commandQueue (.command (tagged9 (.setAttributes attributes0))) ∧
      (asked (.setAttributes attributes0) live).Names attributes0.handle 0 camera ∧ camera.drain = none :=
  ⟨starts_asked, ⟨rfl, rfl, rfl⟩, rfl⟩

/-- `camera` claimed by its own frame context. -/
def claimedCamera : Placement := { camera with claim := some { link := 0, channel := 1 } }

theorem test_meets_RetireDrainsTheRecord :
    ((asked (.retire handle0 false) live).Starts .commandQueue (.command (tagged9 (.retire handle0 false))) ∧
      (asked (.retire handle0 false) live).Names handle0 0 camera ∧ camera.drain = none ∧ camera.claim = none) ∧
    ((asked (.retire handle0 true) (claimedBy camera frame0)).Starts .commandQueue
        (.command (tagged9 (.retire handle0 true))) ∧
      (asked (.retire handle0 true) (claimedBy camera frame0)).Names handle0 0 claimedCamera ∧
      claimedCamera.drain = none ∧ claimedCamera.claim = some { link := 0, channel := 1 }) ∧
    (asked (.retire handle0 false) (claimedBy camera frame0)).Starts .commandQueue
      (.command (tagged9 (.retire handle0 false))) :=
  ⟨⟨starts_asked, ⟨rfl, rfl, rfl⟩, rfl, rfl⟩, ⟨starts_asked, ⟨rfl, rfl, rfl⟩, rfl, rfl⟩,
    starts_asked⟩

theorem test_meets_LookupAndQueryReadTheTables :
    ((asked (.lookup 6 0) live).Starts .commandQueue (.command (tagged9 (.lookup 6 0))) ∧ 5 < (6 : Byte).toNat ∧
      15 < (16 : Byte).toNat) ∧
    ((asked (.lookup 5 15) live).Starts .commandQueue (.command (tagged9 (.lookup 5 15))) ∧
      look (asked (.lookup 5 15) live).keyIndex ({ link := 5, channel := 15 } : Key).place = none) ∧
    ((asked (.lookup 0 1) live).Starts .commandQueue (.command (tagged9 (.lookup 0 1))) ∧
      look (asked (.lookup 0 1) live).keyIndex ({ link := 0, channel := 1 } : Key).place = some 0 ∧
      (asked (.lookup 0 1) live).placement? 0 = some camera) ∧
    ((asked (.query 64) live).Starts .commandQueue (.command (tagged9 (.query 64))) ∧ 63 < (64 : Byte).toNat) ∧
    ((asked (.query 63) live).Starts .commandQueue (.command (tagged9 (.query 63))) ∧
      (63 : RecordNo).val = (63 : Byte).toNat ∧ (asked (.query 63) live).placement? 63 = none) ∧
    ((asked (.query 0) live).Starts .commandQueue (.command (tagged9 (.query 0))) ∧
      (asked (.query 0) live).placement? 0 = some camera ∧ camera.slotA = some slot0 ∧ camera.slotB = none) := by
  refine ⟨⟨starts_asked, ?_⟩, ⟨starts_asked, ?_⟩, ⟨starts_asked, ?_⟩, ⟨starts_asked, ?_⟩,
    ⟨starts_asked, ?_⟩, ⟨starts_asked, ?_⟩⟩
  all_goals decide +kernel

/-- A CONFIGURE-LINK of L0 that leaves it as it is. -/
def link0 : LinkParams := { link := 0, enable := true, mode := 0, pixelSize := 2 }

/-- The start of a CONFIGURE-LINK. -/
def configures (p : LinkParams) (s : State) : Prop :=
  (asked (.configureLink p) s).Starts .commandQueue (.command (tagged9 (.configureLink p)))

theorem test_meets_ConfigureLinkChecksAndWrites :
    (configures { link0 with link := 6 } live ∧ 5 < ({ link0 with link := 6 } : LinkParams).link.toNat) ∧
    (configures { link0 with mode := 2 } live ∧ 1 < ({ link0 with mode := 2 } : LinkParams).mode.toNat) ∧
    (configures { link0 with pixelSize := 3 } live ∧ (3 : Byte) ≠ 2 ∧ (3 : Byte) ≠ 4) ∧
    (configures { link0 with mode := 1 } live ∧ (look live.links 0).single ≠ true ∧
      (∃ b, live.placement? 0 = some b ∧ b.key.link = 0) ∧ ∀ j : RecordNo, ¬ j < 0) ∧
    (configures { link5 with enable := false } live ∧ (look live.links 5).state = .disabled ∧
      ∀ i : RecordNo, (live.placement? i).all (fun b => decide (b.key.link ≠ 5)) = true) ∧
    (configures link5 live ∧ (5 : LinkNo).val = link5.link.toNat ∧ link5.mode.toNat ≤ 1 ∧
      PixelSize.ofByte? link5.pixelSize = some .four ∧ (look live.links 5).state = .disabled) ∧
    (configures link0 live ∧ (look live.links 0).state ≠ .disabled ∧ (look live.links 0).single = false ∧
      (look live.links 0).pixelSize = .two) := by
  refine ⟨⟨starts_asked, ?_⟩, ⟨starts_asked, ?_⟩, ⟨starts_asked, ?_⟩, ⟨starts_asked, ?_⟩,
    ⟨starts_asked, ?_⟩, ⟨starts_asked, ?_⟩, ⟨starts_asked, ?_⟩⟩
  · decide
  · decide
  · decide
  · exact ⟨by decide, ⟨camera, rfl, rfl⟩, by decide⟩
  all_goals decide +kernel

/-- Only record 0 of `withRecord p` is not FREE. -/
theorem only_record0 {p q : Placement} {i : RecordNo} (h : (withRecord p).placement? i = some q) : i = 0 ∧ q = p := by
  have hr : (withRecord p).placement? i = if (0 : RecordNo) = i then some p else none := by
    unfold State.placement? withRecord
    simp only [look_put]
    split
    · rfl
    · simp [ready, State.reset]
  rw [hr] at h
  split at h
  · exact ⟨by simp_all, by simpa using h.symm⟩
  · cases h

/-- L0's context 1 holds the frame, and no other context of any link holds one. -/
theorem only_context1 {f g : Frame} {l : LinkNo} {c : Channel} (h : (claimedBy camera f).context? l c = some g) :
    l = 0 ∧ c = 1 ∧ g = f := by
  unfold State.context? claimedBy at h
  simp only [look_put] at h
  split at h
  · rename_i hl
    simp only [Link.withContext, look_put] at h
    split at h
    · rename_i hc
      exact ⟨hl.symm, hc.symm, by simpa using h.symm⟩
    · simp [lockedLink, Link.reset] at h
  · rename_i hl
    have hk : look ready.links l = Link.reset := by
      unfold ready
      simp only [look_put, if_neg hl]
      simp [State.reset]
    rw [hk] at h
    simp [Link.reset] at h

/-- A claimed record and the frame that claims it are each other's inverse. -/
theorem claims_agree : (claimedBy camera frame0).ClaimsAgree := by
  constructor
  · intro i p c hp hc
    obtain ⟨rfl, rfl⟩ := only_record0 hp
    cases hc
    exact ⟨rfl, frame0, rfl, by decide⟩
  · intro l c f i hf hc
    obtain ⟨rfl, rfl, rfl⟩ := only_context1 hf
    have h0 : (0 : RecordNo) = i := by
      unfold Frame.claims at hc
      simpa [frame0, FramePhase.record?] using hc
    subst h0
    exact ⟨_, rfl, rfl⟩

theorem test_meets_ConfigureLinkDisablesOrRestarts :
    (configures { link0 with enable := false } (claimedBy camera frame0) ∧
      (asked (.configureLink { link0 with enable := false }) (claimedBy camera frame0)).ClaimsAgree ∧
      (look (claimedBy camera frame0).links 0).state ≠ .disabled ∧
      (look (claimedBy camera frame0).links 0).single = false ∧
      (look (claimedBy camera frame0).links 0).pixelSize = .two ∧
      (0 : LinkNo).val = link0.link.toNat ∧ link0.mode.toNat ≤ 1 ∧
      PixelSize.ofByte? link0.pixelSize = some .two) ∧
    (configures { link0 with pixelSize := 4 } ready ∧ (look ready.links 0).pixelSize ≠ .four ∧
      ∀ i b, ready.placement? i = some b → b.key.link ≠ 0) := by
  refine ⟨⟨starts_asked, claims_agree, by decide, by decide, by decide, by decide, by decide, by decide⟩,
    starts_asked, by decide, ?_⟩
  intro i b h
  simp [ready, State.placement?, State.reset] at h

theorem test_meets_TimeoutAndLevelsAreWrittenWhole :
    ((asked (.configureFramestore 0) live).Starts .commandQueue (.command (tagged9 (.configureFramestore 0)))) ∧
    ((asked (.configureFramestore 255) live).Starts .commandQueue (.command (tagged9 (.configureFramestore 255))) ∧
      (255 : Byte) ≠ 0) ∧
    ((asked (.setLevels #v[7, 7, 7, 7, 8]) live).Starts .commandQueue
        (.command (tagged9 (.setLevels #v[7, 7, 7, 7, 8]))) ∧
      7 < (look (#v[7, 7, 7, 7, 8] : Vector Byte 5) 4).toNat ∧
      ∀ m : Fin 5, m < 4 → (look (#v[7, 7, 7, 7, 8] : Vector Byte 5) m).toNat ≤ 7) ∧
    ((asked (.setLevels #v[0, 7, 7, 7, 7]) live).Starts .commandQueue
        (.command (tagged9 (.setLevels #v[0, 7, 7, 7, 7]))) ∧
      ∀ n, (look (#v[0, 7, 7, 7, 7] : Vector (Fin 8) 5) n).val =
        (look (#v[0, 7, 7, 7, 7] : Vector Byte 5) n).toNat) :=
  ⟨starts_asked, ⟨starts_asked, by decide⟩, ⟨starts_asked, by decide, by decide⟩, starts_asked, by decide⟩

/-- The start of a READ-COUNTERS. -/
def counts (p : CounterParams) (s : State) : Prop :=
  (asked (.readCounters p) s).Starts .commandQueue (.command (tagged9 (.readCounters p)))

theorem test_meets_ReadCountersReportsAndClears :
    (counts { kind := 3, target0 := 0, target1 := 0, clear := true } live ∧ 2 < (3 : Byte).toNat) ∧
    (counts { kind := 1, target0 := 6, target1 := 0, clear := true } live ∧ 5 < (6 : Byte).toNat) ∧
    (counts (countersOf handle0 false) drainingState ∧ counts (countersOf handle0 true) drainingState ∧
      (asked (.readCounters (countersOf handle0 true)) drainingState).Names (countersOf handle0 true).handle 0
        draining) ∧
    (counts { kind := 1, target0 := 5, target1 := 0, clear := false } live ∧
      counts { kind := 1, target0 := 5, target1 := 0, clear := true } live ∧ (5 : LinkNo).val = (5 : Byte).toNat) ∧
    counts { kind := 2, target0 := 0, target1 := 0, clear := false } live ∧
    counts { kind := 2, target0 := 0, target1 := 0, clear := true } live :=
  ⟨⟨starts_asked, by decide⟩, ⟨starts_asked, by decide⟩, ⟨starts_asked, starts_asked, rfl, rfl, rfl⟩,
    ⟨starts_asked, starts_asked, by decide⟩, starts_asked, starts_asked⟩

theorem test_meets_SyncFencesOnEveryQueuedBurst :
    ((asked .sync live).Starts .commandQueue (.command (tagged9 .sync)) ∧ (asked .sync live).bursts = []) ∧
    (asked .sync (queueing [burst5] live)).Starts .commandQueue (.command (tagged9 .sync)) ∧
      (asked .sync (queueing [burst5] live)).bursts ≠ [] :=
  ⟨⟨starts_asked, rfl⟩, starts_asked, by decide⟩

/-- An Expiry bit alone. -/
def expiring (p : Placement) : State := { withRecord p with expirySet := put ready.expirySet 0 true }

/-- A SILENT record with an interval. -/
def silentCamera (retire : Bool) (claim : Option Key) : Placement :=
  { camera with interval := some 5, age := 5, activity := .silent, retireOnSilence := retire, claim := claim }

theorem test_meets_ExpireDropsOrPostsSilent :
    ({ ready with expirySet := put ready.expirySet 0 true }.Starts .expirySet (.internal 0) ∧
      { ready with expirySet := put ready.expirySet 0 true }.placement? 0 = none) ∧
    ((expiring draining).Starts .expirySet (.internal 0) ∧ (expiring draining).placement? 0 = some draining ∧
      draining.drain ≠ none) ∧
    ((expiring camera).Starts .expirySet (.internal 0) ∧ camera.drain = none ∧ camera.interval = none) ∧
    ((expiring (aging 4)).Starts .expirySet (.internal 0) ∧ (aging 4).interval ≠ none ∧
      (aging 4).activity ≠ .silent) ∧
    ((expiring (silentCamera false none)).Starts .expirySet (.internal 0) ∧
      (silentCamera false none).activity = .silent) ∧
    (expiring (silentCamera true none)).Starts .expirySet (.internal 0) ∧
    ((expiring (silentCamera true (some { link := 0, channel := 1 }))).Starts .expirySet (.internal 0) ∧
      (silentCamera true (some { link := 0, channel := 1 })).claim = some { link := 0, channel := 1 }) :=
  ⟨⟨starts (by decide +kernel), by decide +kernel⟩, ⟨starts (by decide +kernel), rfl, by decide⟩,
    ⟨starts (by decide +kernel), rfl, rfl⟩, ⟨starts (by decide +kernel), by decide, by decide⟩,
    ⟨starts (by decide +kernel), rfl⟩, starts (by decide +kernel), starts (by decide +kernel), rfl⟩

/-- A Commit bit and a burst. -/
def commits (bs : List Burst) : State :=
  { queueing bs (withRecord flipped) with commitSet := put ready.commitSet 0 true }

/-- A Release bit and a burst. -/
def releases (bs : List Burst) : State :=
  { queueing bs (withRecord draining) with releaseSet := put ready.releaseSet 0 true }

theorem test_meets_CommitAndReleaseFenceOrComplete :
    ((commits [burst5, burst0]).Starts .commitSet (.internal 0) ∧
      (commits [burst5, burst0]).placement? 0 = some flipped ∧ flipped.slotsIn .superseded = [.a] ∧
      flipped.slot .a = some { slot0 with phase := .superseded } ∧
      ∃ b ∈ (commits [burst5, burst0]).bursts, b.record = 0 ∧ b.slot = .a) ∧
    ((commits [burst5]).Starts .commitSet (.internal 0) ∧
      ∀ b ∈ (commits [burst5]).bursts, ¬ (b.record = 0 ∧ b.slot = .a)) ∧
    ((releases [burst5, burst0]).Starts .releaseSet (.internal 0) ∧
      (releases [burst5, burst0]).placement? 0 = some draining ∧ draining.drain = some .retire ∧
      ∃ b ∈ (releases [burst5, burst0]).bursts, b.record = 0 ∧ draining.slot b.slot ≠ none) ∧
    ((releases [burst5]).Starts .releaseSet (.internal 0) ∧
      ∀ b ∈ (releases [burst5]).bursts, ¬ (b.record = 0 ∧ draining.slot b.slot ≠ none)) :=
  ⟨⟨starts (by decide +kernel), rfl, by decide, by decide, by decide⟩, ⟨starts (by decide +kernel), by decide⟩,
    ⟨starts (by decide +kernel), rfl, rfl, by decide⟩, starts (by decide +kernel), by decide⟩

/-- The fence of `syncing`, `committing` and `releasing`. -/
def fenceOf (source : Source) (request : FenceRequest) (awaited : List Bool) (target : List SlotLetter) :
    FenceOperation := { source := source, request := request, awaited := awaited, target := target }

/-- A SYNC that waits for two bursts. -/
def syncingTwo : State :=
  fencing (fenceOf .commandQueue (.sync (tagged9 .sync)) [true, true] []) (queueing [burst5, burst0] live)

theorem test_meets_AFenceWaitsForItsLastBurst :
    (syncingTwo.engine = .fence (fenceOf .commandQueue (.sync (tagged9 .sync)) [true, true] []) ∧
      syncingTwo.answers (.refused 15) = true ∧ awaiting ([true, true] : List Bool).tail = true) ∧
    (syncing.engine = .fence (fenceOf .commandQueue (.sync (tagged9 .sync)) [true] []) ∧
      syncing.answers .timedOut = true ∧ awaiting ([true] : List Bool).tail = false) ∧
    (committing.engine = .fence (fenceOf .commitSet (.commit 0) [true] [.a]) ∧
      committing.answers (.acknowledged 15) = true) ∧
    releasing.engine = .fence (fenceOf .releaseSet (.release 0) [true] [.a]) ∧
      releasing.answers (.acknowledged 15) = true := by decide +kernel

theorem test_meets_FencesEndWithTheirEffects :
    (syncing.engine = .fence (fenceOf .commandQueue (.sync (tagged9 .sync)) [true] []) ∧
      (tagged9 .sync).command = .sync ∧ syncing.answers (.acknowledged 15) = true) ∧
    (committing.engine = .fence (fenceOf .commitSet (.commit 0) [true] [.a]) ∧
      committing.placement? 0 = some flipped ∧ flipped.slot .a = some { slot0 with phase := .superseded } ∧
      committing.answers (.refused 15) = true) ∧
    (releasing.engine = .fence (fenceOf .releaseSet (.release 0) [true] draining.occupiedSlots) ∧
      releasing.placement? 0 = some draining ∧ draining.drain = some .retire ∧
      releasing.answers .timedOut = true) ∧
    awaiting ([true] : List Bool).tail = false := by decide +kernel

/-- A header with a wrong check byte. -/
def badHeader : Vector Byte 8 := #v[0xB7, 0x4E, 0x30, 0, 0, 0, 0, 0x73]

/-- The segment of `closeHeader`. -/
def closeSegment : Segment := { kind := .closeFrame, channel := 0, fieldA := 0, fieldB := 0, payload := [] }

theorem test_meets_SeekingCountsGoodHeaders :
    (look ready.links 5).state = .disabled ∧ (look (seeking 0).links 0).state = .seeking ∧
    parseHeader badHeader = none ∧ parseHeader closeHeader = some closeSegment ∧
    closeSegment.payloadLength .two ≤ ([] : List Byte).length ∧ (look (seeking 2).links 0).goodRun + 1 < 4 ∧
    (look (seeking 3).links 0).goodRun + 1 = 4 := by decide +kernel

/-- `claimedBy` with a run of header errors on L0. -/
def errorRun (n : Nat) : State :=
  { claimedBy camera frame0 with
    links := put (claimedBy camera frame0).links 0 { look (claimedBy camera frame0).links 0 with errorRun := n } }

theorem test_meets_HeaderErrorsLoseLockAtTheEighth :
    (look (errorRun 6).links 0).state = .locked ∧ parseHeader badHeader = none ∧
    (look (errorRun 6).links 0).errorRun + 1 < 8 ∧
    (look (errorRun 7).links 0).state = .locked ∧ (look (errorRun 7).links 0).errorRun + 1 = 8 ∧
    (errorRun 7).ClaimsAgree := by
  refine ⟨by decide +kernel, by decide +kernel, by decide +kernel, by decide +kernel, by decide +kernel, ?_⟩
  have hc : ∀ l c, (errorRun 7).context? l c = (claimedBy camera frame0).context? l c := by
    intro l c
    unfold State.context? errorRun
    simp only [look_put]
    split
    · rename_i h; subst h; rfl
    · rfl
  unfold State.ClaimsAgree
  simp only [hc]
  exact claims_agree

/-- A LINE of channel 1 with no pixel: its header, with the check byte the CRC gives. -/
def lineHeader : Vector Byte 8 :=
  #v[0xB7, 0x4E, 0x21, 0, 0, 0, 2, crc8 [0xB7, 0x4E, 0x21, 0, 0, 0, 2]]

/-- L0 LOCKED with a frame open on context 1 and `n` lines waiting. -/
def lines (n : Nat) : State := waiting frame0 (List.replicate n (lineSegment 0))

theorem test_meets_GoodSegmentsJoinTheFifoOrOverrun :
    ((look (lines 1).links 0).state = .locked ∧ 1 ≤ (look (lines 1).links 0).fifo.length ∧
      (look (lines 3).links 0).fifo.length < 4 ∧ parseHeader closeHeader = some closeSegment ∧
      closeSegment.payloadLength .two ≤ ([] : List Byte).length) ∧
    ((look (lines 0).links 0).fifo = [] ∧
      ((parseHeader lineHeader).map fun g => (g.kind, g.payloadLength .two)) = some (.line, 4)) ∧
    (4 ≤ (look (lines 4).links 0).fifo.length ∧ closeSegment.kind ≠ .line ∧
      look (look (lines 4).links 0).contexts 2 = none) ∧
    (look (look (lines 4).links 0).contexts 1 = some frame0 ∧
      ¬ ∃ e ∈ (look (lines 4).links 0).fifo, e.kind ≠ .line ∧ e.channel = 1) ∧
    ∃ e ∈ (look (waiting frame0 [lineSegment 0, lineSegment 1, { closeSegment with channel := 1 },
      { closeSegment with channel := 2 }]).links 0).fifo, e.kind ≠ .line ∧ e.channel = 1 := by
  decide +kernel

theorem test_meets_ATruncationEndsTheFrame :
    live.context? 0 1 = none ∧ (waiting { frame0 with phase := .refused } []).context? 0 1 =
      some { frame0 with phase := .refused } ∧
    ({ frame0 with phase := .refused } : Frame).phase.record? = none ∧
    (claimedBy draining frame0).context? 0 1 = some frame0 ∧ frame0.phase.record? = some 0 ∧
    (claimedBy draining frame0).placement? 0 = some { draining with claim := some { link := 0, channel := 1 } } := by
  decide +kernel

theorem test_meets_AnOpenRoutesTheFrame :
    ((look live.links 0).state = .locked ∧ (look live.links 0).fifo = [] ∧
      look live.keyIndex ({ link := 0, channel := 2 } : Key).place = none) ∧
    (look live.keyIndex ({ link := 0, channel := 1 } : Key).place = some 0 ∧ live.placement? 0 = some camera ∧
      camera.nextGeometry = some (960, 540) ∧ camera.nextGeometry ≠ some (960, 541) ∧
      camera.slotsIn .staged = []) ∧
    ((withRecord stagedB).placement? 0 = some stagedB ∧ stagedB.nextGeometry = some (1280, 720) ∧
      stagedB.slotsIn .staged ≠ []) := by decide +kernel

theorem test_meets_ACloseCountsTheFrame :
    ((look live.links 0).state = .locked ∧ (look live.links 0).fifo = [] ∧ live.context? 0 1 = none) ∧
    ((waiting { frame0 with phase := .unrouted } []).context? 0 1 = some { frame0 with phase := .unrouted } ∧
      ({ frame0 with phase := .unrouted } : Frame).phase.record? = none) ∧
    ((claimedBy camera { frame0 with accepted := 540 }).context? 0 1 = some { frame0 with accepted := 540 } ∧
      (claimedBy camera { frame0 with accepted := 540 }).placement? 0 = some claimedCamera ∧
      ({ frame0 with accepted := 540 } : Frame).accepted = frame0.height.toNat ∧ frame0.damaged = false) ∧
    (({ frame0 with accepted := 539 } : Frame).accepted ≠ frame0.height.toNat ∧
      ({ frame0 with damaged := true } : Frame).damaged = true) ∧
    ((claimedBy camera { frame0 with phase := .holding 0 }).context? 0 1 = some { frame0 with phase := .holding 0 } ∧
      ({ frame0 with phase := .holding 0 } : Frame).phase.record? = some 0) := by decide +kernel

/-- A line at the head, a CLOSE behind it, and another line. -/
def lineThenClose : State := waiting frame0 [lineSegment 0, { closeSegment with channel := 1 }, lineSegment 0]

/-- The Burst Queue full of bursts of another record, with a LINE of L0 and segments behind it. -/
def fullQueue (gs : List Segment) : State := queueing (List.replicate 32 burst5) (waiting frame0 (lineSegment 0 :: gs))

/-- `fullQueue` after its outstanding burst has departed, and before the grant. -/
def oneRoom (gs : List Segment) : State := ((fullQueue gs).countDeparture (.acknowledged 15)).depart

theorem test_meets_HeadsAreTakenInTheSameEvent :
    ((fullQueue [{ closeSegment with channel := 1 }, lineSegment 0]).answers (.acknowledged 15) = true ∧
      (oneRoom [{ closeSegment with channel := 1 }, lineSegment 0]).granted = some 0 ∧
      (look (oneRoom [{ closeSegment with channel := 1 }, lineSegment 0]).links 0).fifo.tail[0]? =
        some { closeSegment with channel := 1 }) ∧
    ((oneRoom [closeSegment, { closeSegment with kind := .openFrame }]).granted = some 0 ∧
      (look (oneRoom [closeSegment, { closeSegment with kind := .openFrame }]).links 0).fifo.tail[0]? =
        some closeSegment ∧ closeSegment.kind ≠ .line ∧
      (look (oneRoom [closeSegment, { closeSegment with kind := .openFrame }]).links 0).fifo.tail[1]? =
        some { closeSegment with kind := .openFrame }) ∧
    ((look live.links 0).state = .locked ∧ (look live.links 0).fifo = [] ∧
      parseHeader closeHeader = some closeSegment ∧ closeSegment.kind = .closeFrame) ∧
    (parseHeader #v[0xB7, 0x4E, 0x11, 3, 0xC0, 2, 0x1C, crc8 [0xB7, 0x4E, 0x11, 3, 0xC0, 2, 0x1C]]).map
      Segment.kind = some .openFrame := by decide +kernel

theorem test_meets_AnAbortTruncatesOnlyTheClaimingFrame :
    ({ record := 0, context := { link := 0, channel := 1 } } : Abort) ∉ live.aborts ∧
    ({ record := 0, context := { link := 0, channel := 1 } } : Abort) ∈ aborting.aborts ∧
    aborting.context? 0 1 = some frame0 ∧ frame0.phase = .placing 0 ∧
    (∀ f, { aborting with links := ready.links }.context? 0 1 = some f →
      f.phase ≠ .placing 0 ∧ f.phase ≠ .holding 0) := by
  refine ⟨by decide, by decide, by decide +kernel, rfl, ?_⟩
  intro f h
  have hn : { aborting with links := ready.links }.context? 0 1 = none := by decide +kernel
  rw [hn] at h
  cases h

theorem test_meets_GrantsGoToTheLinkInTurn :
    (∀ g ∈ (look live.links 0).fifo.head?, g.kind ≠ .line) ∧
    ((look lineThenClose.links 0).fifo.head? = some (lineSegment 0) ∧ lineThenClose.context? 0 1 = some frame0 ∧
      lineThenClose.context? 0 2 = none ∧ frame0.lineFault (lineSegment 540) ≠ none ∧
      (∀ i, ({ frame0 with phase := .holding 0 } : Frame).phase ≠ .placing i)) ∧
    (frame0.lineFault (lineSegment 0) = none ∧ frame0.phase = .placing 0 ∧
      lineThenClose.placement? 0 = some claimedCamera ∧ claimedCamera.slotsIn .active = [.a] ∧
      claimedCamera.slot .a = some slot0 ∧
      ∀ e ∈ slot0.entries, look lineThenClose.pool e = some entry0 ∧
        look lineThenClose.planes entry0.plane = some plane0) ∧
    lineThenClose.granted = some 0 ∧ live.granted = none ∧ (fullQueue []).granted = none := by
  refine ⟨by decide +kernel, ⟨by decide +kernel, by decide +kernel, by decide +kernel, by decide +kernel, ?_⟩,
    by decide +kernel⟩
  intro i h
  cases h

theorem test_meets_AGrantedLineIsCheckedAndAccepted :
    ((waiting frame0 [{ lineSegment 0 with channel := 2 }]).granted = some 0 ∧
      (waiting frame0 [{ lineSegment 0 with channel := 2 }]).context? 0 2 = none) ∧
    ((waiting frame0 [lineSegment 540]).granted = some 0 ∧
      (look (waiting frame0 [lineSegment 540]).links 0).fifo = [lineSegment 540] ∧
      frame0.height.toNat ≤ (lineSegment 540).fieldA.toNat) ∧
    ((waiting { frame0 with last := some 539 } [lineSegment 539]).granted = some 0 ∧
      (lineSegment 539).fieldA.toNat < frame0.height.toNat ∧ (lineSegment 539).fieldA.toNat ≤ (539 : U16).toNat) ∧
    ((waiting frame0 [{ lineSegment 0 with fieldB := 959 }]).granted = some 0 ∧ frame0.last = none ∧
      ({ lineSegment 0 with fieldB := 959 } : Segment).fieldB ≠ frame0.width) ∧
    ((waiting { frame0 with last := some 538 } [lineSegment 539]).granted = some 0 ∧
      ¬ (lineSegment 539).fieldA.toNat ≤ (538 : U16).toNat ∧ (lineSegment 539).fieldB = frame0.width) := by
  decide +kernel

theorem test_meets_AnAcceptedLineMakesItsBursts :
    ((lines 1).context? 0 1 = some frame0 ∧ frame0.lineFault (lineSegment 539) = none ∧ frame0.phase = .placing 0 ∧
      (lines 1).placement? 0 = some claimedCamera ∧ claimedCamera.slotsIn .active = [.a] ∧
      claimedCamera.slot .a = some slot0 ∧
      ∀ e ∈ slot0.entries, look (lines 1).pool e = some entry0 ∧ look (lines 1).planes entry0.plane = some plane0) ∧
    (({ frame0 with phase := .holding 0 } : Frame).phase = .holding 0 ∧
      ({ frame0 with phase := .holding 0 } : Frame).lineFault (lineSegment 0) = none) ∧
    (queueing [burst5] live).bursts ≠ [] ∧ live.bursts = [] ∧ [burst0] ≠ [] := by decide +kernel

theorem test_meets_AnswersEndTheOutstandingBurst :
    (queueing [burst5, burst0] live).outstanding = true ∧
    (queueing [burst5, burst0] live).bursts = burst5 :: [burst0] ∧
    burst5.data[2 * 1]? = some 3 ∧ burst5.data[2 * 1 + 1]? = some 4 ∧
    (∀ op, (queueing [burst5, burst0] live).engine ≠ .fence op) ∧
    live.outstanding = false ∧ (14 : BitVec 4) ≠ (queueing [burst5] live).issueNumber := by
  refine ⟨rfl, rfl, rfl, rfl, ?_, rfl, by decide⟩
  intro op h
  cases h

theorem test_meets_AMillisecondAgesTheAgedRecords :
    ready.placement? 63 = none ∧ draining.drain ≠ none ∧ camera.interval = none ∧
    (silentCamera false none).activity = .silent ∧
    ((withRecord (aging 3)).placement? 0 = some (aging 3) ∧ (aging 3).drain = none ∧ (aging 3).interval = some 5 ∧
      (aging 3).activity ≠ .silent ∧ (aging 3).age + 1 ≠ 5 ∧ (aging 4).age + 1 = 5) := by decide +kernel

theorem test_meets_AnExpirySilencesTheRecord :
    (withRecord (aging 4)).placement? 0 = some (aging 4) ∧ (aging 4).drain = none ∧ (aging 4).interval = some 5 ∧
      (aging 4).activity ≠ .silent ∧ (aging 4).age + 1 = 5 := by decide +kernel

/-! ## The invariants hold in a state with a record, a frame and a burst -/

theorem test_meets_EveryStepKeepsTheAccounts :
    { queueing [burst5] syncing with frame := .inProgress [0x22], pending := [.millisecondStep] }.Accounted ∧
    ∃ t, step { queueing [burst5] syncing with frame := .inProgress [0x22], pending := [.millisecondStep] } =
      .next t := by
  refine ⟨⟨?_, by decide, by decide, ?_, by decide, by decide, ?_⟩, ⟨_, rfl⟩⟩
  · intro request h
    cases h
    decide +kernel
  · unfold State.EngineAccounted
    exact ⟨rfl, by decide, by decide⟩
  · unfold Link.Accounted
    decide +kernel

/-- The Key Index of `live`. -/
theorem live_keys (k : Key) (i : RecordNo) :
    look (withRecord camera).keyIndex k.place = some i ↔ k = camera.key ∧ i = 0 := by
  unfold withRecord
  simp only [camera, CreateParams.placement, Option.isNone_none, if_true, look_put]
  split
  · rename_i h
    have := Key.place_injective h
    subst this
    simp [eq_comm]
  · rename_i h
    have : look ready.keyIndex k.place = none := by simp [ready, State.reset]
    rw [this]
    constructor
    · intro h'; cases h'
    · rintro ⟨rfl, -⟩; exact absurd rfl h

theorem test_meets_EveryStepKeepsTheTablesInAgreement :
    { claimedBy camera frame0 with pending := [.millisecondStep] }.TablesAgree ∧
    ∃ t, step { claimedBy camera frame0 with pending := [.millisecondStep] } = .next t := by
  refine ⟨⟨?_, ?_, claims_agree, ?_, ⟨?_, ?_, ?_⟩, trivial⟩, ⟨_, rfl⟩⟩
  · intro i p h
    obtain ⟨rfl, rfl⟩ := only_record0 h
    decide +kernel
  · intro k i
    refine (live_keys k i).trans ⟨?_, ?_⟩
    · rintro ⟨rfl, rfl⟩
      exact ⟨_, rfl, rfl, rfl⟩
    · rintro ⟨p, hp, -, hk⟩
      obtain ⟨rfl, rfl⟩ := only_record0 hp
      exact ⟨hk.symm, rfl⟩
  all_goals
    intro i h
    simp [claimedBy, withRecord, ready, State.reset] at h

/-- A burst of line 0 of record 0's frame. -/
def burstLine0 : Burst :=
  { address := 0, length := 1920, data := List.replicate 1920 0, record := 0, slot := .a, link := 0 }

/-- Record 0 claimed by its frame, with a burst of it outstanding. -/
def placed0 : State := queueing [burstLine0] (claimedBy camera frame0)

/-- Entry 0 is the only one. -/
theorem only_entry0 {e : EntryNo} {en : Entry} (h : look placed0.pool e = some en) : e = 0 ∧ en = entry0 := by
  have hp : placed0.pool = put ready.pool 0 (some entry0) := rfl
  rw [hp, look_put] at h
  split at h
  · rename_i h0
    exact ⟨h0.symm, by simpa using h.symm⟩
  · simp [ready, State.reset] at h

/-- Plane 0 is the only one. -/
theorem only_plane0 {q : PlaneNo} {p : Plane} (h : look placed0.planes q = some p) : q = 0 ∧ p = plane0 := by
  have hp : placed0.planes = put State.reset.planes 0 (some plane0) := rfl
  rw [hp, look_put] at h
  split at h
  · rename_i h0
    exact ⟨h0.symm, by simpa using h.symm⟩
  · simp [State.reset] at h

theorem test_meets_EveryStepKeepsTheWindowsApart :
    { placed0 with pending := [.millisecondStep] }.Accounted ∧
      { placed0 with pending := [.millisecondStep] }.TablesAgree ∧
      { placed0 with pending := [.millisecondStep] }.WindowsApart ∧
      ∃ t, step { placed0 with pending := [.millisecondStep] } = .next t := by
  refine ⟨⟨nofun, by decide, by decide, rfl, by decide, by decide, ?_⟩,
    test_meets_EveryStepKeepsTheTablesInAgreement.1, ⟨⟨?_, ?_⟩, ?_, ?_, ⟨?_, ?_⟩, ?_, ⟨?_, ?_⟩, trivial, trivial, ?_⟩, ⟨_, rfl⟩⟩
  · unfold Link.Accounted
    decide +kernel
  · intro e en h
    obtain ⟨rfl, rfl⟩ := only_entry0 h
    exact ⟨claimedCamera, slot0, rfl, rfl, by decide⟩
  · intro i p x g hp hx
    obtain ⟨rfl, rfl⟩ := only_record0 hp
    cases x
    · cases hx
      exact ⟨by decide, by decide, by decide, fun e he => by simp at he; subst he; exact ⟨entry0, rfl, rfl, rfl⟩⟩
    · cases hx
  · intro e e' en en' hne h h' _
    exact absurd ((only_entry0 h).1.trans (only_entry0 h').1.symm) hne
  · intro b hb
    have hb' : b = burstLine0 := by simpa [placed0, queueing] using hb
    subst hb'
    exact ⟨claimedCamera, slot0, 0, entry0, plane0, rfl, rfl, by decide, rfl, rfl, rfl, by decide +kernel, 0,
      by decide, by decide, by decide⟩
  · intro q p h
    obtain ⟨rfl, rfl⟩ := only_plane0 h
    unfold Plane.Sound
    decide
  · intro q q' p p' hne h h'
    exact absurd ((only_plane0 h).1.trans (only_plane0 h').1.symm) hne
  · intro e en h
    obtain ⟨rfl, rfl⟩ := only_entry0 h
    exact ⟨claimedCamera, slot0, plane0, rfl, rfl, rfl, rfl, by decide⟩
  · intro l c f i hf hc
    obtain ⟨rfl, rfl, rfl⟩ := only_context1 hf
    have h0 : (0 : RecordNo) = i := by
      unfold Frame.claims at hc
      simpa [frame0, FramePhase.record?] using hc
    subst h0
    exact ⟨claimedCamera, .a, slot0, rfl, rfl, rfl, rfl, rfl⟩
  · decide +kernel
  · decide +kernel

end Sys2Proof.Tests
end

/-! SUPPORT. Segment headers: what the byte, word and kind readers make of a header, when a header is good, and how the
check byte grows by one byte (R121, R190). -/

namespace Sys2Proof.Machine

/-! ## Bytes and words of a header -/

/-- A byte of a header, read from its bytes, is the table's byte at that place. -/
@[simp] theorem byteAt_toList (h : Vector Byte 8) (i : Fin 8) : byteAt h.toList i.val = look h i := by
  simp [byteAt, look, List.getD_eq_getElem?_getD]

/-- A two-byte field of a header is the byte at its offset followed by the next one (10). -/
theorem wordAt_toList (h : Vector Byte 8) {i j : Fin 8} (hij : j.val = i.val + 1) :
    wordAt h.toList i.val = look h i ++ look h j := by
  rw [wordAt, ← hij, byteAt_toList, byteAt_toList]

/-- The bytes that the check byte covers. -/
theorem take_seven_toList (h : Vector Byte 8) :
    h.toList.take 7 = [look h 0, look h 1, look h 2, look h 3, look h 4, look h 5, look h 6] := by
  refine List.ext_getElem (by simp) fun n hn _ => ?_
  have hn7 : n < 7 := by simpa using hn
  interval_cases n <;> simp [look]

/-- Two bytes make the word of two others only when they are the same bytes. -/
theorem append_bytes_inj {a b c d : Byte} : a ++ b = c ++ d ↔ a = c ∧ b = d := by
  refine ⟨fun h => ⟨?_, ?_⟩, fun ⟨ha, hb⟩ => by rw [ha, hb]⟩
  · simpa only [BitVec.extractLsb'_append_eq_left] using congrArg (BitVec.extractLsb' 8 8) h
  · simpa only [BitVec.extractLsb'_append_eq_right] using congrArg (BitVec.extractLsb' 0 8) h

/-! ## The kind field -/

/-- The number that stands for a kind in a header's kind field (R190). -/
def SegmentKind.number : SegmentKind → Nat
  | .openFrame => 1
  | .line => 2
  | .closeFrame => 3

/-- A kind field is read as the kind whose number it holds. -/
theorem SegmentKind.ofNat?_eq_some_iff {n : Nat} {k : SegmentKind} :
    SegmentKind.ofNat? n = some k ↔ k.number = n := by
  constructor
  · unfold SegmentKind.ofNat?
    split_ifs with h1 h2 h3
    · rintro ⟨⟩; exact h1.symm
    · rintro ⟨⟩; exact h2.symm
    · rintro ⟨⟩; exact h3.symm
    · rintro ⟨⟩
  · rintro rfl
    cases k <;> rfl

/-- The numbers in use are 1, 2 and 3. -/
theorem SegmentKind.exists_number_eq_iff {n : Nat} : (∃ k : SegmentKind, k.number = n) ↔ 1 ≤ n ∧ n ≤ 3 := by
  constructor
  · rintro ⟨k, rfl⟩
    cases k <;> decide
  · rintro ⟨hlow, hhigh⟩
    interval_cases n
    · exact ⟨.openFrame, rfl⟩
    · exact ⟨.line, rfl⟩
    · exact ⟨.closeFrame, rfl⟩

/-- No two kinds share a number, as a kind field is read as one kind. -/
theorem SegmentKind.number_injective : Function.Injective SegmentKind.number := fun _ _ hjk =>
  Option.some.inj ((ofNat?_eq_some_iff.mpr hjk).symm.trans (ofNat?_eq_some_iff.mpr rfl))

/-! ## Good headers -/

/-- The sync word and the check byte of a header are right; what its kind field holds is not asked (R121). -/
def HeaderIntact (h : Vector Byte 8) : Prop :=
  look h 0 = 0xB7 ∧ look h 1 = 0x4E ∧
    crc8 [look h 0, look h 1, look h 2, look h 3, look h 4, look h 5, look h 6] = look h 7

/-- The segment that a header of kind `k` announces, its fields taken from the places of the layout (R190). -/
def segmentOf (h : Vector Byte 8) (k : SegmentKind) : Segment :=
  { kind := k, channel := channelOf (look h 2), fieldA := look h 3 ++ look h 4, fieldB := look h 5 ++ look h 6,
    payload := [] }

/-- The test that `parseHeader` makes of the sync word and of the check byte. -/
theorem headerIntact_iff (h : Vector Byte 8) :
    (wordAt h.toList 0 = 0xB74E ∧ crc8 (h.toList.take 7) = byteAt h.toList 7) ↔ HeaderIntact h := by
  have hword : wordAt h.toList 0 = look h 0 ++ look h 1 := wordAt_toList h (i := 0) (j := 1) rfl
  have hcheck : byteAt h.toList 7 = look h 7 := byteAt_toList h 7
  have hsync : (0xB74E : U16) = (0xB7 : Byte) ++ (0x4E : Byte) := rfl
  rw [hword, hcheck, hsync, append_bytes_inj, take_seven_toList, and_assoc, HeaderIntact]

/-- A header is read as a segment exactly when it is intact and its kind field names the segment's kind; the segment is
then the one the layout gives. -/
theorem parseHeader_eq_some_iff {h : Vector Byte 8} {g : Segment} :
    parseHeader h = some g ↔
      HeaderIntact h ∧ ∃ k : SegmentKind, k.number = (look h 2).toNat / 16 ∧ segmentOf h k = g := by
  have hkind : byteAt h.toList 2 = look h 2 := byteAt_toList h 2
  have hfieldA : wordAt h.toList 3 = look h 3 ++ look h 4 := wordAt_toList h (i := 3) (j := 4) rfl
  have hfieldB : wordAt h.toList 5 = look h 5 ++ look h 6 := wordAt_toList h (i := 5) (j := 6) rfl
  simp only [parseHeader, Option.ite_none_right_eq_some, Option.map_eq_some_iff, headerIntact_iff,
    SegmentKind.ofNat?_eq_some_iff, hkind, hfieldA, hfieldB, segmentOf]

/-- A header is good exactly when it is intact and its kind is one of the three (R121). -/
theorem parseHeader_isSome_iff (h : Vector Byte 8) :
    (parseHeader h).isSome = true ↔
      HeaderIntact h ∧ 1 ≤ (look h 2).toNat / 16 ∧ (look h 2).toNat / 16 ≤ 3 := by
  simp only [Option.isSome_iff_exists, parseHeader_eq_some_iff, ← SegmentKind.exists_number_eq_iff]
  constructor
  · rintro ⟨_, hintact, k, hk, _⟩
    exact ⟨hintact, k, hk⟩
  · rintro ⟨hintact, k, hk⟩
    exact ⟨_, hintact, k, hk, rfl⟩

/-- The kind of a segment read from a header is the one with the number of the kind field. -/
theorem kind_eq_iff_of_parseHeader {h : Vector Byte 8} {g : Segment} (hg : parseHeader h = some g)
    (k : SegmentKind) : g.kind = k ↔ (look h 2).toNat / 16 = k.number := by
  obtain ⟨_, k', hk', rfl⟩ := parseHeader_eq_some_iff.mp hg
  rw [← hk', SegmentKind.number_injective.eq_iff, segmentOf]

/-- Only a LINE has a payload, of its pixel count times the pixel size (R121). -/
theorem Segment.payloadLength_eq (g : Segment) (z : PixelSize) :
    g.payloadLength z = if g.kind = .line then g.fieldB.toNat * z.bytes else 0 := by
  unfold Segment.payloadLength
  cases g.kind <;> rfl

/-! ## The check byte -/

/-- One more byte is exclusive-ored into the remainder, which is then shifted eight times (R190). -/
theorem crc8_concat (sent : List Byte) (b : Byte) : crc8 (sent ++ [b]) = crcByte (crc8 sent) b :=
  List.foldl_concat crcByte 0 b sent

/-- The check byte of a CLOSE of channel 0, by the remainders that R190 lists. -/
theorem crc8_closeOfChannelZero : crc8 [0xB7, 0x4E, 0x30, 0, 0, 0, 0] = 0x72 := by
  have hsyncHigh : crcByte 0x00 0xB7 = 0x0C := by decide
  have hsyncLow : crcByte 0x0C 0x4E = 0xC9 := by decide
  have hkindChannel : crcByte 0xC9 0x30 = 0xE1 := by decide
  have hfieldAHigh : crcByte 0xE1 0x00 = 0xA9 := by decide
  have hfieldALow : crcByte 0xA9 0x00 = 0x56 := by decide
  have hfieldBHigh : crcByte 0x56 0x00 = 0xA5 := by decide
  have hfieldBLow : crcByte 0xA5 0x00 = 0x72 := by decide
  rw [crc8, List.foldl_cons, hsyncHigh, List.foldl_cons, hsyncLow, List.foldl_cons, hkindChannel, List.foldl_cons,
    hfieldAHigh, List.foldl_cons, hfieldALow, List.foldl_cons, hfieldBHigh, List.foldl_cons, hfieldBLow,
    List.foldl_nil]

/-! ## When a header is good, and how it is read -/

/-- Settles O43: the good headers by `parseHeader_isSome_iff`, their fields by `parseHeader_eq_some_iff`, and the CRC's
recursion by `crc8_concat`, whose shift `crcShift` is the statement's multiplication by x. -/
theorem headersAreCheckedAndRead : Obligations.HeadersAreCheckedAndRead := by
  refine ⟨fun h => ?_, fun h g hg => ?_, rfl, crc8_concat, crc8_closeOfChannelZero⟩
  · rw [parseHeader_isSome_iff, HeaderIntact, and_assoc, and_assoc]
  · have hkind := kind_eq_iff_of_parseHeader hg
    obtain ⟨_, k, _, rfl⟩ := parseHeader_eq_some_iff.mp hg
    exact ⟨hkind .openFrame, hkind .line, hkind .closeFrame, rfl, rfl, rfl, Segment.payloadLength_eq _⟩

end Sys2Proof.Machine

/-! SUPPORT. The interrupt conditions: when each holds, their bits in the byte the part sends, when IRQN is low, and what
READ_STATUS makes of them (R179, R184, R187). -/

namespace Sys2Proof.Machine

/-! ## Bits of a flag byte -/

/-- A flag placed in a byte is that byte's bit at its place, and every other bit is clear. -/
theorem getLsbD_bit_iff (b : Bool) {place i : Nat} (hplace : place < 8) :
    (bit b place).getLsbD i = true ↔ i = place ∧ b = true := by
  cases b with
  | false => simp [bit]
  | true =>
    rw [bit, if_pos rfl, BitVec.getLsbD_ofNat, Nat.testBit_two_pow, Bool.and_eq_true, decide_eq_true_iff,
      decide_eq_true_iff, eq_self_iff_true, and_true]
    omega

/-- Each listed bit of a flag byte is sent as it is; only the others are free (R187; log 5). -/
theorem getLsbD_flagByte {listed : Byte} {i : Nat} (hi : listed.getLsbD i = true) (value : Byte) (draw offset : Nat) :
    (flagByte listed value draw offset).getLsbD i = value.getLsbD i := by
  simp [flagByte, hi]

/-- A byte masked by another is not zero exactly when some bit is set in both. -/
theorem and_ne_zero_iff (x y : Byte) : x &&& y ≠ 0 ↔ ∃ i, x.getLsbD i = true ∧ y.getLsbD i = true := by
  constructor
  · intro h
    by_contra! hnone
    exact h (BitVec.eq_of_getLsbD_eq fun i _ => by simpa using hnone i)
  · rintro ⟨i, hx, hy⟩ hzero
    have hbit : (x &&& y).getLsbD i = true := by rw [BitVec.getLsbD_and, hx, hy, Bool.and_self]
    rw [hzero] at hbit
    exact absurd hbit (by simp)

/-! ## The four conditions (R184) -/

/-- RESPONSE_WAITING holds while the filled count is above 0. -/
theorem State.responseWaiting_iff (s : State) : s.responseWaiting = true ↔ 0 < s.responses.length := by
  simp [State.responseWaiting, List.length_pos_iff]

/-- QUEUE_LOW holds while the level is at or below the refill mark. -/
theorem State.queueLow_iff (s : State) : s.queueLow = true ↔ s.commandQueue.length ≤ s.refillMark.val :=
  decide_eq_true_iff

/-- LINK_ATTENTION holds while some link's attention flag is set. -/
theorem State.linkAttention_iff (s : State) :
    s.linkAttention = true ↔ ∃ l, (look s.links l).attention = true := by
  simp [State.linkAttention]

/-- FRAMESTORE_ATTENTION holds while the frame-store attention flag is set. -/
theorem State.framestoreAttention_iff (s : State) : s.framestoreAttention = true ↔ s.fsAttention = true := Iff.rfl

/-! ## The byte of the conditions and IRQN -/

/-- The conditions stand at bits 0 to 3 of their byte, in the order of the mask, and no other bit is set (R187). -/
theorem State.getLsbD_conditions_iff (s : State) (i : Nat) :
    s.conditions.getLsbD i = true ↔
      (i = 0 ∧ s.responseWaiting = true) ∨ (i = 1 ∧ s.queueLow = true) ∨ (i = 2 ∧ s.linkAttention = true) ∨
      (i = 3 ∧ s.framestoreAttention = true) := by
  simp only [State.conditions, BitVec.getLsbD_or, Bool.or_eq_true, or_assoc, getLsbD_bit_iff, Nat.reduceLT]

/-- IRQN is low exactly while some condition holds whose enable is set; bits 4 to 7 of the mask enable nothing (R184). -/
theorem State.irqnLow_iff (s : State) :
    s.irqnLow = true ↔
      (s.irqMask.getLsbD 0 = true ∧ s.responseWaiting = true) ∨ (s.irqMask.getLsbD 1 = true ∧ s.queueLow = true) ∨
      (s.irqMask.getLsbD 2 = true ∧ s.linkAttention = true) ∨
      (s.irqMask.getLsbD 3 = true ∧ s.framestoreAttention = true) := by
  have hsome : s.irqnLow = true ↔ ∃ i, s.irqMask.getLsbD i = true ∧ s.conditions.getLsbD i = true := by
    rw [State.irqnLow, decide_eq_true_iff, and_ne_zero_iff]
  simp only [hsome, s.getLsbD_conditions_iff, and_or_left, exists_or, and_left_comm, exists_eq_left]

/-! ## READ_STATUS (R179) -/

/-- READ_STATUS while MCS# is ignored is not taken (R186). -/
theorem exec_readStatus_ignored {s : State} (hf : s.frame = .ignored) : exec .readStatus s = .next s :=
  congrArg Host.Outcome.next (State.taking_ignored hf _)

/-- READ_STATUS taken sends the view of the state it is taken in, and changes nothing else of the part but its frame
(R171, R179). -/
theorem exec_readStatus_taken {s : State} (hf : s.frame ≠ .ignored) :
    exec .readStatus s = .next { s with frame := .replying, draws := s.draws + 1, reply := s.statusBytes } :=
  congrArg Host.Outcome.next (State.taking_taken hf _)

/-- The last byte of the status has the conditions at its listed bits, enabled or not (R187). -/
theorem State.flagAt_statusBytes_conditions (s : State) {i : Nat} (hi : i < 4) :
    flagAt s.statusBytes 16 i = s.conditions.getLsbD i := by
  have hbyte : byteAt s.statusBytes 16 = flagByte 0x0F s.conditions s.draws 16 := rfl
  have hlisted : (0x0F : Byte).getLsbD i = true := by interval_cases i <;> rfl
  rw [flagAt, hbyte, getLsbD_flagByte hlisted]

/-- The status reports each of the four conditions at its own bit (R179, R187). -/
theorem State.statusBytes_reports_conditions (s : State) :
    flagAt s.statusBytes 16 0 = s.responseWaiting ∧ flagAt s.statusBytes 16 1 = s.queueLow ∧
    flagAt s.statusBytes 16 2 = s.linkAttention ∧ flagAt s.statusBytes 16 3 = s.framestoreAttention := by
  refine ⟨?_, ?_, ?_, ?_⟩ <;>
    rw [s.flagAt_statusBytes_conditions (by decide), Bool.eq_iff_iff, s.getLsbD_conditions_iff] <;> simp

/-- Settles O14: each condition by its equivalence, IRQN by `State.irqnLow_iff`, and READ_STATUS by whether it is
taken; neither outcome changes what IRQN is computed from. -/
theorem irqnFollowsTheEnabledConditions : Obligations.IrqnFollowsTheEnabledConditions := by
  intro s
  refine ⟨s.responseWaiting_iff, s.queueLow_iff, s.linkAttention_iff, s.framestoreAttention_iff, ?_, ?_⟩
  · rw [s.irqnLow_iff, s.responseWaiting_iff, s.queueLow_iff, s.linkAttention_iff, s.framestoreAttention_iff]
  · by_cases hf : s.frame = .ignored
    · exact ⟨s, exec_readStatus_ignored hf, rfl, fun htaken => absurd hf htaken⟩
    · exact ⟨_, exec_readStatus_taken hf, rfl, fun _ => s.statusBytes_reports_conditions⟩

end Sys2Proof.Machine

/-! SUPPORT. The management port: what each transaction makes of a state in which it is taken, what a frame's bytes and
its bits on MDI spell, and that a record with a listed code is read. -/

namespace Sys2Proof.Machine

/-! ## Frames and their bits (R170 to R172) -/

/-- The bits of a byte as the port sends it, written out. -/
theorem sentBits_eq (b : Byte) :
    sentBits b = [b.getLsbD 7, b.getLsbD 6, b.getLsbD 5, b.getLsbD 4, b.getLsbD 3, b.getLsbD 2, b.getLsbD 1,
      b.getLsbD 0] := rfl

/-- Bits short of a byte make no byte (R172). -/
theorem sampledBytes_of_length_lt : ∀ {bits : List Bool}, bits.length < 8 → sampledBytes bits = []
  | [], _ | [_], _ | [_, _], _ | [_, _, _], _ | [_, _, _, _], _ | [_, _, _, _, _], _ | [_, _, _, _, _, _], _
  | [_, _, _, _, _, _, _], _ => rfl
  | _ :: _ :: _ :: _ :: _ :: _ :: _ :: _ :: _, h => by simp at h; omega

/-- Whole bytes sent one after another are received as those bytes, and a byte that is cut changes nothing in them. -/
theorem sampledBytes_flatMap_sentBits (bytes : List Byte) {cut : List Bool} (h : cut.length < 8) :
    sampledBytes (bytes.flatMap sentBits ++ cut) = bytes := by
  induction bytes with
  | nil => exact sampledBytes_of_length_lt h
  | cons b bytes ih => rw [List.flatMap_cons, List.append_assoc, sampledBytes_sentBits, ih]

/-- A request part that is under way is held, unless MCS# is ignored. -/
theorem State.cutFrame_underWay {s : State} {received : List Byte} (hf : s.frame ≠ .ignored)
    (hr : requestIncomplete received = true) :
    s.cutFrame (.underWay received) = s.withFrame (.inProgress received) := by
  unfold State.cutFrame
  cases hs : s.frame with
  | ignored => exact absurd hs hf
  | idle | inProgress _ | replying => simp [hr]

/-- While MCS# is ignored no frame begins (R186). -/
theorem State.cutFrame_underWay_ignored {s : State} (hf : s.frame = .ignored) (received : List Byte) :
    s.cutFrame (.underWay received) = s := by
  simp only [State.cutFrame, hf]

/-- A code that names no transaction is answered MALFORMED where it is taken (R173). -/
theorem exec_malformed {code : Byte} (hc : code ∉ transactionCodes) (s : State) :
    exec (.malformed code) s = .next (s.taking fun s => s.answerCode .malformed) := if_neg hc

/-- While MCS# is ignored no code is taken, whether it names a transaction or not. -/
theorem exec_malformed_ignored {s : State} (hf : s.frame = .ignored) (code : Byte) :
    exec (.malformed code) s = .next s := by
  by_cases hc : code ∈ transactionCodes
  · exact if_pos hc
  · rw [exec_malformed hc, State.taking_ignored hf]

/-- Settles O4: the frames by `State.cutFrame` and `State.taking`, MDO by the frame it stands in, and the bits on MDI
by what they are received as. -/
theorem framesFollowTheChipSelect : Obligations.FramesFollowTheChipSelect := by
  refine ⟨fun received s => ⟨rfl, ?_, ?_, ?_⟩, fun length bytes s h => ⟨?_, ?_⟩, fun s hf => ?_, fun s => ?_, ?_⟩
  · exact fun hf hr => congrArg Host.Outcome.next (State.cutFrame_underWay hf hr)
  · exact fun hf => congrArg Host.Outcome.next (if_pos hf)
  · exact fun hf => congrArg Host.Outcome.next (if_neg hf)
  · exact congrArg Host.Outcome.next (State.takePush_short h s _)
  · exact congrArg Host.Outcome.next (State.takePush_short h s _)
  · have hnone (effect : State → State) : Host.Outcome.next (s.taking effect) = (.next s : Host.Outcome State Fault Refusal) :=
      congrArg Host.Outcome.next (State.taking_ignored hf effect)
    refine ⟨fun received => congrArg Host.Outcome.next (State.cutFrame_underWay_ignored hf received),
      exec_malformed_ignored hf, fun length bytes h => ?_, hnone _, hnone _, hnone _, hnone _, fun _ => hnone _, hnone _,
      fun _ _ _ => hnone _, hnone _⟩
    exact ⟨congrArg Host.Outcome.next (State.takePush_ignored hf h _),
      congrArg Host.Outcome.next (State.takePush_ignored hf h _)⟩
  · exact ⟨fun h => h.elim State.mdo_idle State.mdo_ignored, fun _ => State.mdo_inProgress, State.mdo_replying⟩
  · exact fun bytes cut h => congrArg frameCommand (sampledBytes_flatMap_sentBits bytes h)

/-! ## Transactions that are taken -/

/-- A transaction that is taken leaves its effect, with its frame in its reply part (R170, R171). -/
theorem next_taking {s : State} (hf : s.frame ≠ .ignored) (effect : State → State) :
    (Host.Outcome.next (s.taking effect) : Host.Outcome State Fault Refusal) = .next ((effect s).withFrame .replying) :=
  congrArg Host.Outcome.next (State.taking_taken hf effect)

/-- A record whose length is not the one of its code, or whose code is not listed, is not read (R91, R174). -/
theorem parseRecord_eq_none {bytes : List Byte} (h : recordLength? (byteAt bytes 0) ≠ some bytes.length) :
    parseRecord bytes = none := if_neg h

/-- The codes with a record length are the twelve command codes (R188). -/
theorem mem_of_recordLength : ∀ code : Byte, recordLength? code ≠ none →
    code ∈ [0x01, 0x02, 0x03, 0x04, 0x05, 0x06, 0x07, 0x08, 0x09, 0x0A, 0x0B, (0x0C : Byte)] := by decide +kernel

/-- A code with a record length is the code of the command that its record is read as (R188). -/
theorem commandAt_of_recordLength {bytes : List Byte} (h : recordLength? (byteAt bytes 0) ≠ none) :
    ∃ c, commandAt bytes = some c ∧ c.code = byteAt bytes 0 := by
  have hmem := mem_of_recordLength _ h
  unfold commandAt
  simp only [List.mem_cons, List.not_mem_nil, or_false] at hmem
  rcases hmem with hc | hc | hc | hc | hc | hc | hc | hc | hc | hc | hc | hc <;> rw [hc] <;> exact ⟨_, rfl, rfl⟩

/-- A record with a listed code and that code's length is read with the code, tag and preempt flag sent (R91, R188). -/
theorem parseRecord_of_recordLength {bytes : List Byte} (h : recordLength? (byteAt bytes 0) = some bytes.length) :
    ∃ r, parseRecord bytes = some r ∧ r.command.code = byteAt bytes 0 ∧ r.tag = byteAt bytes 1 ∧
      r.preempt = (byteAt bytes 2).getLsbD 0 := by
  obtain ⟨c, hc, hcode⟩ := commandAt_of_recordLength (h ▸ Option.some_ne_none _)
  refine ⟨{ tag := byteAt bytes 1, preempt := flagAt bytes 2 0, command := c }, ?_, hcode, rfl, rfl⟩
  simp [parseRecord, h, hc]

/-- Settles O5: what is malformed is answered where it is taken, and nothing else is done. -/
theorem malformedChangesNothing : Obligations.MalformedChangesNothing := by
  refine fun s hf => ⟨fun code hc => ?_, fun length bytes h hr => ?_, fun link hl => ?_, fun mask mark gate hm => ?_⟩
  · rw [exec_malformed hc]
    exact next_taking hf _
  · have hlen : (bytes.take length.toNat).length = length.toNat := by simp [h]
    have hnone : parseRecord (bytes.take length.toNat) = none := parseRecord_eq_none (by rwa [hlen])
    exact ⟨congrArg Host.Outcome.next (State.takePush_malformed hf h hnone _),
      congrArg Host.Outcome.next (State.takePush_malformed hf h hnone _)⟩
  · have hnone : inRange? 6 link = none := inRange?_eq_none.mpr hl
    refine (next_taking hf _).trans (congrArg Host.Outcome.next ?_)
    simp only [State.reportLink, hnone]
    rfl
  · have hnone : inRange? 16 mark = none := inRange?_eq_none.mpr hm
    refine (next_taking hf _).trans (congrArg Host.Outcome.next ?_)
    simp only [State.writeControls, hnone]
    rfl

/-! ## The request sources (04) -/

/-- Settles O6: the records by `parseRecord_of_recordLength`, the queue by the level that `State.acceptCommand` tests. -/
theorem pushCommandAppendsBelowSixteen : Obligations.PushCommandAppendsBelowSixteen := by
  refine ⟨fun bytes h => parseRecord_of_recordLength h, fun length bytes r s hf h hr => ?_⟩
  have hexec : exec (.pushCommand length bytes) s = .next ((s.acceptCommand r).withFrame .replying) :=
    congrArg Host.Outcome.next (State.takePush_accepted hf h hr _)
  refine ⟨fun hlow => ?_, fun hfull => ?_⟩
  · rw [hexec, State.acceptCommand, if_pos hlow]; rfl
  · rw [hexec, State.acceptCommand, if_neg (by omega)]; rfl

/-- A command that does not preempt the operation in flight leaves the engine alone (R87). -/
theorem State.preempt_none {s : State} {r : CommandRecord}
    (h : r.preempt = false ∨ ∀ op, s.engine = .scan op → s.level op.source ≤ s.level .prioritySlot) :
    s.preempt r = s := by
  unfold State.preempt
  split
  case h_1 op he =>
    refine if_neg fun hc => ?_
    rcases h with h | h
    · simp [h] at hc
    · have := h op he
      omega
  all_goals rfl

/-- A preempting command cancels a scan of a source of a greater level number (R54, R87). -/
theorem State.preempt_scan {s : State} {r : CommandRecord} {op : ScanOperation} (he : s.engine = .scan op)
    (hr : r.preempt = true) (hl : s.level .prioritySlot < s.level op.source) : s.preempt r = s.cancelScan op := by
  simp only [State.preempt, he, hr, hl, and_self, if_true]

/-- A slot that is taken stays as it is (R84). -/
theorem State.acceptPriority_busy {s : State} {w : CommandRecord} (h : s.prioritySlot = some w) (r : CommandRecord) :
    s.acceptPriority r = s.answerCode .slotBusy := by rw [State.acceptPriority, h]

/-- An empty slot takes the command, which may then preempt (R84, R87). -/
theorem State.acceptPriority_empty {s : State} (h : s.prioritySlot = none) (r : CommandRecord) :
    s.acceptPriority r = ({ s with prioritySlot := some r }.preempt r).answerCode .accepted := by
  rw [State.acceptPriority, h]

/-- Settles O7: by whether the slot is empty, and then by whether the command preempts. -/
theorem pushPriorityFillsTheSlotAndMayCancel : Obligations.PushPriorityFillsTheSlotAndMayCancel := by
  intro length bytes r s hf h hr
  have hexec : exec (.pushPriority length bytes) s = .next ((s.acceptPriority r).withFrame .replying) :=
    congrArg Host.Outcome.next (State.takePush_accepted hf h hr _)
  refine ⟨fun hbusy => ?_, fun op hempty hp he hl => ?_, fun hempty hkeep => ?_⟩
  · obtain ⟨w, hw⟩ := Option.ne_none_iff_exists'.mp hbusy
    rw [hexec, State.acceptPriority_busy hw]; rfl
  · rw [hexec, State.acceptPriority_empty hempty, State.preempt_scan (s := { s with prioritySlot := some r }) he hp hl]
    rfl
  · rw [hexec, State.acceptPriority_empty hempty, State.preempt_none (s := { s with prioritySlot := some r }) hkeep]
    rfl

/-- An empty slot has nothing to withdraw (R86). -/
theorem State.withdrawSlot_empty {s : State} (h : s.prioritySlot = none) :
    s.withdrawSlot = s.answer [Reply.nothing.byte, 0, 0] := by rw [State.withdrawSlot, h]

/-- Settles O8: by whether a command waits in the slot; the flush leaves no level. -/
theorem withdrawAndFlushEmptyTheirSources : Obligations.WithdrawAndFlushEmptyTheirSources := by
  refine fun s hf => ⟨fun r hr => ?_, fun hempty => ?_, _, next_taking hf _, rfl, rfl⟩
  · refine (next_taking hf _).trans (congrArg Host.Outcome.next ?_)
    rw [State.withdrawSlot, hr]; rfl
  · refine (next_taking hf _).trans (congrArg Host.Outcome.next ?_)
    rw [State.withdrawSlot_empty hempty]; rfl

/-! ## Transactions that read, and the port's controls -/

/-- With no record filled the answer is EMPTY (R58). -/
theorem State.popOldest_empty {s : State} (h : s.responses = []) : s.popOldest = s.answer [0] := by
  rw [State.popOldest, h]

/-- Settles O9: by whether a record is filled. -/
theorem popResponseTakesTheOldest : Obligations.PopResponseTakesTheOldest := by
  refine fun s hf => ⟨fun r rest hr => ⟨_, ?_, rfl, fun hsum => ?_⟩, fun hempty => ?_⟩
  · refine (next_taking hf _).trans (congrArg Host.Outcome.next ?_)
    rw [State.popOldest, hr]; rfl
  · simp only [State.responseFree, hr, List.length_cons] at hsum ⊢
    omega
  · refine (next_taking hf _).trans (congrArg Host.Outcome.next ?_)
    rw [State.popOldest_empty hempty]; rfl

/-- A byte of a link's status: its two lowest bits are the link state, and the highest is the attention flag (R187). -/
theorem State.linkStatusByte_bits (s : State) (l : LinkNo) :
    s.linkStatusByte l &&& 3 = (look s.links l).state.byte ∧
      (s.linkStatusByte l).getLsbD 7 = (look s.links l).attention := by
  have hlisted : ∀ (free : Byte) (st : LinkState) (attention : Bool),
      ((st.byte ||| bit attention 7) &&& 0x83 ||| free &&& ~~~0x83) &&& 3 = st.byte ∧
        (((st.byte ||| bit attention 7) &&& 0x83) ||| free &&& ~~~0x83).getLsbD 7 = attention := by
    intro free st attention
    cases st <;> cases attention <;> exact (by revert free; decide +kernel)
  exact hlisted _ _ _

/-- The flags of the status: the back-up's, the gate's and the Priority Slot's (R187). -/
theorem State.statusFlags_bits (s : State) :
    flagAt s.statusBytes 2 0 = s.backup.isSome ∧ flagAt s.statusBytes 2 1 = s.gateOpen ∧
      flagAt s.statusBytes 2 2 = s.prioritySlot.isSome := by
  have hbyte : byteAt s.statusBytes 2 =
      flagByte 0x07 (bit s.backup.isSome 0 ||| bit s.gateOpen 1 ||| bit s.prioritySlot.isSome 2) s.draws 2 := rfl
  refine ⟨?_, ?_, ?_⟩ <;>
    rw [flagAt, hbyte, getLsbD_flagByte (by rfl), Bool.eq_iff_iff, BitVec.getLsbD_or, BitVec.getLsbD_or,
      Bool.or_eq_true, Bool.or_eq_true, getLsbD_bit_iff _ (by decide), getLsbD_bit_iff _ (by decide),
      getLsbD_bit_iff _ (by decide)] <;>
    simp

/-- The status byte of each link stands at its own offset (R187). -/
theorem State.byteAt_statusBytes_link (s : State) (l : LinkNo) :
    byteAt s.statusBytes (7 + l.val) = s.linkStatusByte l := by
  revert l
  simp only [Fin.forall_fin_succ]
  exact ⟨rfl, rfl, rfl, rfl, rfl, rfl, fun l => l.elim0⟩

/-- The frame-store flag of the status (R187). -/
theorem State.statusFramestore_bit (s : State) : flagAt s.statusBytes 13 0 = s.fsAttention := by
  have hbyte : byteAt s.statusBytes 13 = flagByte 0x01 (bit s.fsAttention 0) s.draws 13 := rfl
  rw [flagAt, hbyte, getLsbD_flagByte (by rfl), Bool.eq_iff_iff, getLsbD_bit_iff _ (by decide)]
  simp

/-- Settles O10: the status byte by byte, the flag bytes by their listed bits. -/
theorem readStatusReportsOneView : Obligations.ReadStatusReportsOneView := by
  intro s hf
  obtain ⟨hbackup, hgate, hslot⟩ := s.statusFlags_bits
  refine ⟨s.statusBytes, exec_readStatus_taken hf, rfl, rfl, rfl, hbackup, hgate, hslot, rfl, rfl, rfl, rfl,
    fun l => ?_, s.statusFramestore_bit, rfl, rfl, s.statusBytes_reports_conditions⟩
  rw [flagAt, s.byteAt_statusBytes_link]
  exact s.linkStatusByte_bits l

/-- Settles O11: the link read is the one the byte names; its flag byte has enable and mode at their listed bits. -/
theorem readingAnAttentionFlagClearsIt : Obligations.ReadingAnAttentionFlagClearsIt := by
  refine ⟨fun b l s hf hl => ?_, fun s hf => next_taking hf _⟩
  have hsome : inRange? 6 b = some l := inRange?_eq_some.mpr hl
  refine ⟨flagByte 0x03 (bit (look s.links l).enable 0 ||| bit (look s.links l).single 1) s.draws 2, ?_, ?_, ?_⟩
  · refine (next_taking hf _).trans (congrArg Host.Outcome.next ?_)
    simp only [State.reportLink, hsome]; rfl
  all_goals
    rw [getLsbD_flagByte (by rfl), Bool.eq_iff_iff, BitVec.getLsbD_or, Bool.or_eq_true, getLsbD_bit_iff _ (by decide),
      getLsbD_bit_iff _ (by decide)]
    simp

/-- Settles O12: the mark is the one its byte names, and QUEUE_LOW reads it. -/
theorem setPortControlWritesAllThree : Obligations.SetPortControlWritesAllThree := by
  intro mask mark gate m s hf hm
  have hsome : inRange? 16 mark = some m := inRange?_eq_some.mpr hm
  refine ⟨_, ?_, rfl, ?_⟩
  · refine (next_taking hf _).trans (congrArg Host.Outcome.next ?_)
    simp only [State.writeControls, hsome]; rfl
  · rw [State.queueLow_iff, ← hm]

end Sys2Proof.Machine

/-! SUPPORT. The reset of the part and of its table side: what empty tables and empty sources give (R25, R26, R43, R65,
R66, R89, R90, R137, R138, R158, R183, R186). -/

namespace Sys2Proof.Machine

/-! ## Empty tables and sources -/

/-- A table with no record in use has 64 FREE ones (R1). -/
theorem State.tableFree_of_free {s : State} (h : ∀ i, s.placement? i = none) : s.tableFree = 64 := by
  have hall : s.freeRecords = List.finRange 64 :=
    List.filter_eq_self.mpr fun i _ => Option.isNone_iff_eq_none.mpr (h i)
  rw [State.tableFree, hall, List.length_finRange]

/-- A pool with no entry in use has 128 FREE ones (R33). -/
theorem State.poolFree_of_free {s : State} (h : ∀ e, look s.pool e = none) : s.poolFree = 128 := by
  have hall : s.freeEntries = List.finRange 128 :=
    List.filter_eq_self.mpr fun e _ => Option.isNone_iff_eq_none.mpr (h e)
  rw [State.poolFree, hall, List.length_finRange]

/-- An empty pending set has no lowest record. -/
theorem lowestSet_replicate : lowestSet (Vector.replicate 64 false) = none :=
  List.find?_eq_none.mpr fun i _ => by simp

/-- Empty sources offer nothing (R67). -/
theorem State.offer_of_empty {s : State} (hslot : s.prioritySlot = none)
    (hrelease : s.releaseSet = Vector.replicate 64 false) (hcommit : s.commitSet = Vector.replicate 64 false)
    (hexpiry : s.expirySet = Vector.replicate 64 false) (hqueue : s.commandQueue = []) (hbackup : s.backup = none) :
    ∀ x, s.offer x = none
  | .prioritySlot => by rw [State.offer, hslot]; rfl
  | .releaseSet => by rw [State.offer, hrelease, lowestSet_replicate]; rfl
  | .commitSet => by rw [State.offer, hcommit, lowestSet_replicate]; rfl
  | .expirySet => by rw [State.offer, hexpiry, lowestSet_replicate]; rfl
  | .commandQueue => by simp [State.offer, hbackup, hqueue]

/-- An empty FIFO holds no room request (R144). -/
theorem State.roomRequest_of_fifo_nil {s : State} {l : LinkNo} (h : (look s.links l).fifo = []) :
    s.roomRequest l = none := by rw [State.roomRequest, h]

/-! ## POWER_ON (R186) -/

/-- Power-on with no frame in progress leaves none, and an MCS# that is low is ignored (R186; log 25). -/
theorem PortFrame.afterPowerOn_of_ne_idle {f : PortFrame} (h : f ≠ .idle) : f.afterPowerOn = .ignored := by
  cases f with
  | idle => exact absurd rfl h
  | inProgress _ | replying | ignored => rfl

/-- Power-on leaves MDO at high impedance (R185, R186). -/
theorem mdo_after_powerOn {s t : State} (h : exec .powerOn s = .next t) : t.mdo = .highImpedance := by
  cases h
  cases s.frame with
  | idle => exact State.mdo_idle rfl
  | inProgress _ | replying | ignored => exact State.mdo_ignored rfl

/-- Settles O3: the frame by where it stood, and the power-on values block by block. -/
theorem powerOnLeavesThePowerOnValues : Obligations.PowerOnLeavesThePowerOnValues := by
  have hfree (i : RecordNo) : look State.reset.records i = { generation := 0, placement := none } := look_replicate _ i
  have hpool (e : EntryNo) : look State.reset.pool e = none := look_replicate _ e
  have hlink (l : LinkNo) : look State.reset.links l = Link.reset := look_replicate _ l
  refine ⟨fun s => ⟨fun hf => ?_, fun hf => ?_, fun t => mdo_after_powerOn⟩, rfl, rfl, hfree, fun k => look_replicate _ k,
    hpool, fun p => look_replicate _ p, State.tableFree_of_free fun i => congrArg Record.placement (hfree i),
    State.poolFree_of_free hpool, rfl, rfl, rfl, rfl, rfl,
    fun i => ⟨look_replicate _ i, look_replicate _ i, look_replicate _ i⟩, rfl, rfl, rfl, rfl, rfl, rfl,
    State.offer_of_empty rfl rfl rfl rfl rfl rfl,
    fun l => ⟨hlink l, State.roomRequest_of_fifo_nil (congrArg Link.fifo (hlink l))⟩,
    rfl, rfl, rfl, rfl, rfl, rfl, rfl, fun c => look_replicate _ c, fun n => look_replicate _ n, rfl, rfl, rfl, rfl, rfl,
    rfl, rfl, rfl, rfl, rfl, rfl, rfl, by decide, rfl⟩
  · change Host.Outcome.next { State.reset with pending := s.pending, draws := s.draws, frame := s.frame.afterPowerOn } = _
    rw [hf]; rfl
  · change Host.Outcome.next { State.reset with pending := s.pending, draws := s.draws, frame := s.frame.afterPowerOn } = _
    rw [PortFrame.afterPowerOn_of_ne_idle hf]

/-! ## TABLE_RESET (R183) -/

/-- Every record is FREE after the reset of the table side (R26). -/
theorem State.placement?_tableReset (s : State) (i : RecordNo) : s.tableReset.placement? i = none := by
  simp [State.placement?, State.tableReset, Record.tableReset]

/-- The generation of a record that was in use rises at the reset of the table side (R26). -/
theorem State.generation_tableReset (s : State) (i : RecordNo) :
    (look s.tableReset.records i).generation =
      if s.placement? i = none then (look s.records i).generation else (look s.records i).generation + 1 := by
  simp only [State.tableReset, look_map, Record.tableReset, State.placement?]
  by_cases hfree : (look s.records i).placement = none
  · simp [hfree]
  · simp [hfree, Option.isSome_iff_ne_none]

/-- A link receiver after the reset of the table side (R138). -/
@[simp] theorem State.look_links_tableReset (s : State) (l : LinkNo) :
    look s.tableReset.links l = (look s.links l).tableReset := by simp [State.tableReset]

/-- Settles O13: the table side by its reset, the sources and the tables by being empty. -/
theorem tableResetClearsTheTableSide : Obligations.TableResetClearsTheTableSide := by
  intro s hf
  refine ⟨_, next_taking hf _, fun i => ⟨s.placement?_tableReset i, s.generation_tableReset i⟩, fun l => ⟨?_, ?_⟩,
    State.tableFree_of_free s.placement?_tableReset, State.poolFree_of_free fun e => look_replicate _ e,
    State.offer_of_empty rfl rfl rfl rfl rfl rfl, rfl, rfl, rfl⟩
  · exact s.look_links_tableReset l
  · exact State.roomRequest_of_fifo_nil (congrArg Link.fifo (s.look_links_tableReset l))

/-! ## The step -/

/-- Settles O1: by the queue's front. -/
theorem stepRunsTheFrontCommand : Obligations.StepRunsTheFrontCommand := by
  refine ⟨fun c rest s h => ?_, fun s h => ?_⟩
  · simp only [step, h]
  · simp only [step, h]

end Sys2Proof.Machine

/-! SUPPORT. The byte layouts: frames, command records and response records (R187 to R189). -/

namespace Sys2Proof.Machine

/-! ## Frames as bytes (R187) -/

/-- A push brings its length byte and as many record bytes as that says; what follows is not examined (R170). -/
theorem frameCommand_push (n : Byte) (record rest : List Byte) (h : record.length = n.toNat) :
    frameCommand ([0x10, n] ++ record ++ rest) = .pushCommand n record ∧
      frameCommand ([0x11, n] ++ record ++ rest) = .pushPriority n record := by
  constructor <;> simp [frameCommand, requestIncomplete, ← h]

/-- A code that is none of the ten is MALFORMED (R173). -/
theorem frameCommand_unlisted {code : Byte} (rest : List Byte)
    (h : code ∉ [0x10, 0x11, 0x12, 0x13, 0x20, 0x21, 0x22, 0x23, 0x30, (0x3F : Byte)]) :
    frameCommand (code :: rest) = .malformed code := by
  simp only [List.mem_cons, List.not_mem_nil, or_false, not_or] at h
  obtain ⟨h1, h2, h3, h4, h5, h6, h7, h8, h9, h10⟩ := h
  simp only [frameCommand, requestIncomplete, h1, h2, h3, h4, h5, h6, h7, h8, h9, h10, or_self, if_false,
    Bool.false_eq_true]

/-- A frame that ends within its request part is an incomplete one (R172). -/
theorem frameCommand_incomplete {bs : List Byte} (h : requestIncomplete bs = true) :
    frameCommand bs = .incompleteFrame (.ended bs) := by
  cases bs with
  | nil => rfl
  | cons code rest => simp [frameCommand, h]

/-! ## Command records (R188) -/

/-- What a record that is read holds: its length is its code's, and its command is the one its bytes give. -/
theorem parseRecord_eq_some {bs : List Byte} {r : CommandRecord} (h : parseRecord bs = some r) :
    recordLength? (byteAt bs 0) = some bs.length ∧ commandAt bs = some r.command := by
  unfold parseRecord at h
  split_ifs at h with hlen
  obtain ⟨c, hc, rfl⟩ := Option.map_eq_some_iff.mp h
  exact ⟨hlen, hc⟩

/-- A record of a listed code has the length and the command that the layout gives for the code. -/
theorem parseRecord_layout {bs : List Byte} {r : CommandRecord} (h : parseRecord bs = some r) {code : Byte} {n : Nat}
    {c : Command} (hlen : recordLength? code = some n) (hat : byteAt bs 0 = code → commandAt bs = some c) :
    byteAt bs 0 = code → bs.length = n ∧ r.command = c := by
  intro hcode
  obtain ⟨hl, hc⟩ := parseRecord_eq_some h
  rw [hcode, hlen] at hl
  rw [hat hcode] at hc
  exact ⟨(Option.some.inj hl).symm, (Option.some.inj hc).symm⟩

/-! ## Response records (R189) -/

/-- The two listed bits of a flag byte with two flags. -/
theorem flagByte_pair (a b : Bool) (draw : Nat) :
    (flagByte 0x03 (bit a 0 ||| bit b 1) draw 0).getLsbD 0 = a ∧
      (flagByte 0x03 (bit a 0 ||| bit b 1) draw 0).getLsbD 1 = b := by
  constructor <;>
    rw [getLsbD_flagByte (by rfl), Bool.eq_iff_iff, BitVec.getLsbD_or, Bool.or_eq_true, getLsbD_bit_iff _ (by decide),
      getLsbD_bit_iff _ (by decide)] <;>
    simp

/-- The listed bit of a flag byte with one flag. -/
theorem flagByte_single (a : Bool) (draw : Nat) : (flagByte 0x01 (bit a 0) draw 0).getLsbD 0 = a := by
  rw [getLsbD_flagByte (by rfl), Bool.eq_iff_iff, getLsbD_bit_iff _ (by decide)]
  simp

/-- A four-byte field is its upper and then its lower two bytes. -/
theorem bytes32_eq (v : U32) : bytes32 v = bytes16 (v.extractLsb' 16 16) ++ bytes16 (v.extractLsb' 0 16) := by
  have hpart (a b : Nat) (hb : b + 8 ≤ 16) :
      v.extractLsb' (a + b) 8 = (v.extractLsb' a 16).extractLsb' b 8 := by
    ext i hi
    simp [show b + i < 16 by omega, Nat.add_assoc]
  rw [bytes32, hpart 16 8 (by decide), hpart 16 0 (by decide), hpart 0 8 (by decide), hpart 0 0 (by decide)]
  rfl

/-- A slot's letter and state, its size and its entries in a snapshot (R189). -/
theorem slotBytes_some (x : SlotLetter) (g : Slot) (es : List (EntryNo × Entry)) :
    slotBytes x (some g) es =
      [x.byte, g.phase.byte] ++ bytes16 g.width ++ bytes16 g.height ++ [byteOf es.length] ++ es.flatMap entryBytes := rfl

/-- The number of slots that are not EMPTY. -/
theorem Placement.length_occupiedSlots (p : Placement) :
    p.occupiedSlots.length = match p.slotA, p.slotB with
      | some _, some _ => 2
      | some _, none | none, some _ => 1
      | none, none => 0 := by
  unfold Placement.occupiedSlots Placement.slot
  cases p.slotA <;> cases p.slotB <;> rfl

/-- The eight counters of a link, one after another. -/
theorem flatMap_toList_eight (c : Vector U16 8) (f : U16 → List Byte) :
    c.toList.flatMap f = f (look c 0) ++ f (look c 1) ++ f (look c 2) ++ f (look c 3) ++ f (look c 4) ++ f (look c 5) ++
      f (look c 6) ++ f (look c 7) := by
  have hlist : c.toList = [look c 0, look c 1, look c 2, look c 3, look c 4, look c 5, look c 6, look c 7] := by
    refine List.ext_getElem (by simp) fun n hn _ => ?_
    have hn8 : n < 8 := by simpa using hn
    interval_cases n <;> simp [look]
  simp [hlist]

/-- The bytes of a label (R189). -/
theorem labelBytes_eq (label : Option U16) : labelBytes label = (label.map bytes16).getD [] := by
  cases label <;> rfl

/-- The lifecycle state of a record in use: 1 LIVE, 2 DRAINING (R189). -/
theorem Record.lifecycleByte_eq {r : Record} {p : Placement} (h : r.placement = some p) :
    r.lifecycleByte = if p.drain = none then 1 else 2 := by
  simp only [Record.lifecycleByte, h]
  cases p.drain <;> rfl

/-- The drain cause of a snapshot, nothing for a LIVE record (R189). -/
theorem drainBytes_eq (d : Option DrainCause) : (d.map DrainCause.byte).toList = match d with
    | none => []
    | some .retire => [0]
    | some .silence => [1] := by
  rcases d with _ | _ | _ <;> rfl

/-- Settles O15: frames by their first byte, command records by the code at offset 0, and response records part by
part, with the listed bits of each flag byte. -/
theorem recordsFollowTheFormats : Obligations.RecordsFollowTheFormats := by
  refine ⟨fun rest => ⟨fun n record h => frameCommand_push n record rest h, rfl, rfl, rfl, rfl, fun l => rfl, rfl,
    fun _ _ _ => ?_, rfl, fun code h => frameCommand_unlisted rest h⟩, fun bs h => frameCommand_incomplete ?_,
    fun bs r h => ?_, fun n tag code st h p => ⟨rfl, rfl⟩, rfl, fun n => ?_, fun n h label retiring => ?_⟩
  · simp [frameCommand, requestIncomplete]
  · rcases h with rfl | rfl | rfl | rfl | ⟨code, n, record, rfl | rfl, hshort, rfl⟩ | ⟨parameters, hshort, rfl⟩
    · rfl
    · rfl
    · rfl
    · rfl
    · simpa [requestIncomplete] using hshort
    · simpa [requestIncomplete] using hshort
    · simpa [requestIncomplete] using hshort
  · have hat {code : Byte} {n : Nat} {c : Command} := parseRecord_layout h (code := code) (n := n) (c := c)
    exact ⟨hat rfl fun hc => by rw [commandAt, hc]; rfl, hat rfl fun hc => by rw [commandAt, hc]; rfl,
      hat rfl fun hc => by rw [commandAt, hc]; rfl, hat rfl fun hc => by rw [commandAt, hc]; rfl,
      hat rfl fun hc => by rw [commandAt, hc]; rfl, hat rfl fun hc => by rw [commandAt, hc]; rfl,
      hat rfl fun hc => by rw [commandAt, hc]; rfl, hat rfl fun hc => by rw [commandAt, hc]; rfl,
      hat rfl fun hc => by rw [commandAt, hc]; rfl, hat rfl fun hc => by rw [commandAt, hc]; rfl,
      hat rfl fun hc => by rw [commandAt, hc]; rfl, hat rfl fun hc => by rw [commandAt, hc]; rfl⟩
  · refine ⟨rfl, fun _ => rfl, fun _ => rfl, fun _ => rfl, fun _ _ => rfl, fun _ _ _ => rfl, fun _ _ => rfl, rfl, rfl,
      fun _ _ => rfl, fun _ => rfl, fun _ => rfl, fun _ _ => ⟨rfl, rfl⟩, fun claim sent => ?_, fun _ => ⟨rfl, rfl, rfl⟩,
      fun _ _ => rfl, fun l enable single z st => ?_, fun _ => rfl, fun _ _ _ _ _ => rfl, fun cleared c => ?_,
      fun cleared c => ?_, fun _ _ _ => ?_, fun i r as bs h => ?_, fun i r p as bs h => ?_⟩
    · exact ⟨_, (flagByte_pair _ _ n).1, (flagByte_pair _ _ n).2, rfl⟩
    · refine ⟨_, flagByte_single enable n, ?_⟩
      cases z <;> cases st <;> rfl
    · simp only [Payload.bytes, bytes32_eq]; rfl
    · simp only [Payload.bytes, flatMap_toList_eight, List.append_assoc]; rfl
    · rfl
    · simp only [Payload.bytes, h, Record.lifecycleByte]; rfl
    · refine ⟨_, (flagByte_pair p.label.isSome p.claim.isSome n).1, (flagByte_pair _ _ n).2, ?_⟩
      simp only [Payload.bytes, h, Record.lifecycleByte_eq h, placementBytes, labelBytes_eq, drainBytes_eq,
        p.length_occupiedSlots, bytes32_eq]
      cases p.slotA <;> cases p.slotB <;> simp only [List.append_assoc] <;> rfl
  · have hflags (set : Bool) := flagByte_pair label.isSome set n
    refine ⟨⟨_, hflags false, ?_⟩, ⟨_, hflags false, ?_⟩, ⟨_, hflags false, ?_⟩, ⟨_, hflags retiring, ?_⟩⟩ <;>
      cases label <;> rfl

end Sys2Proof.Machine

/-! SUPPORT. Starts: which start command runs what the arbiter takes, what each start of a host command gives, and the
checks on a new slot (R36 to R38, R46, R67, R69 to R71, R92, R94, R97, R28). -/

namespace Sys2Proof.Machine

/-! ## Offers and starts (R67, R69, R70) -/

/-- Only the Priority Slot and the Command Queue offer host commands (R67). -/
theorem State.source_of_offer_command {s : State} {x : Source} {r : CommandRecord}
    (h : s.offer x = some (.command r)) : x = .prioritySlot ∨ x = .commandQueue := by
  cases x with
  | prioritySlot => exact .inl rfl
  | commandQueue => exact .inr rfl
  | releaseSet | commitSet | expirySet =>
    obtain ⟨i, _, hi⟩ := Option.map_eq_some_iff.mp h
    cases hi

/-- What is started was offered. -/
theorem State.Starts.offered {s : State} {x : Source} {q : Request} (h : s.Starts x q) : s.offer x = some q := by
  obtain ⟨-, -, hoffer, -⟩ := h
  exact hoffer

/-- A host command that is started runs by the start command of its kind. -/
theorem State.Starts.startedBy_command {s : State} {x : Source} {r : CommandRecord} (h : s.Starts x (.command r)) :
    x.startedBy (.command r) = some r.command.startedBy := by
  rcases State.source_of_offer_command h.offered with rfl | rfl <;> rfl

/-- The arbiter takes one start at most. -/
theorem State.Starts.unique {s : State} {x y : Source} {q r : Request} (hx : s.Starts x q) (hy : s.Starts y r) :
    y = x ∧ r = q := by
  have heq := ((s.arbitrate_eq_some y r).mpr hy).symm.trans ((s.arbitrate_eq_some x q).mpr hx)
  simpa using heq

/-- An IDLE engine, a free response entry and an offer are a start (R69, R70). -/
theorem State.exists_starts {s : State} (hidle : s.engine = .idle) (hfree : s.responses.length + s.reserved < 32)
    (hoffer : ∃ x q, s.offer x = some q) : ∃ x q, s.Starts x q := by
  obtain ⟨x, q, hq⟩ := hoffer
  have hw := s.winnerAmong_winner
  cases hwin : s.winner with
  | none =>
    rw [hwin] at hw
    exact absurd (hw x (Source.mem_all x)) (by simp [hq])
  | some b =>
    rw [hwin] at hw
    obtain ⟨_, hb, hbeats⟩ := hw
    exact ⟨b.1, b.2, hidle, hfree, hb, fun y r hy hne => hbeats y (Source.mem_all y) (by simp [hy]) hne⟩

/-- A start command of a host command changes nothing where the arbiter takes no start of its kind (R70; log 1). -/
theorem State.startHost_other {α : Type} {s : State} {c : Instr} {pick : Command → Option α}
    (hpick : ∀ cmd a, pick cmd = some a → cmd.startedBy = c) (h : ∀ x q, s.Starts x q → x.startedBy q ≠ some c)
    (run : Source → CommandRecord → α → State → State) : s.startHost pick run = s := by
  rcases s.startHost_cases pick run with hnone | ⟨x, r, a, hs, ha, _⟩
  · exact hnone
  · exact absurd (hs.startedBy_command.trans (congrArg some (hpick _ a ha))) (h x _ hs)

/-- A start command of an internal operation changes nothing where the arbiter takes no start of its set (R70; log 1). -/
theorem State.startInternal_other {s : State} {c : Instr} {x : Source} (hx : ∀ i, x.startedBy (.internal i) = some c)
    (h : ∀ x q, s.Starts x q → x.startedBy q ≠ some c) (run : RecordNo → State → State) :
    s.startInternal x run = s := by
  rcases s.startInternal_cases x run with hnone | ⟨i, hs, _⟩
  · exact hnone
  · exact absurd (hx i) (h x _ hs)

/-- A start command changes nothing where the arbiter takes no start of its kind. -/
theorem exec_start_other {s : State} {c : Instr} (hc : c ∈ startCommands)
    (h : ∀ x q, s.Starts x q → x.startedBy q ≠ some c) : exec c s = .next s := by
  have host {α : Type} {pick : Command → Option α} (hpick : ∀ cmd a, pick cmd = some a → cmd.startedBy = c)
      (run : Source → CommandRecord → α → State → State) :
      (Host.Outcome.next (s.startHost pick run) : Host.Outcome State Fault Refusal) = .next s :=
    congrArg Host.Outcome.next (State.startHost_other hpick h run)
  have internal {x : Source} (hx : ∀ i, x.startedBy (.internal i) = some c) (run : RecordNo → State → State) :
      (Host.Outcome.next (s.startInternal x run) : Host.Outcome State Fault Refusal) = .next s :=
    congrArg Host.Outcome.next (State.startInternal_other hx h run)
  simp only [startCommands, List.mem_cons, List.not_mem_nil, or_false] at hc
  iterate 12
    rcases hc with rfl | hc
    · exact host (fun cmd a ha => by (cases cmd <;> cases ha); rfl) _
  rcases hc with rfl | rfl | rfl
  · exact internal (fun _ => rfl) _
  · exact internal (fun _ => rfl) _
  · exact internal (fun _ => rfl) _

/-- Settles O16: there is a start and no second one; a start command of another request, or with no start, does
nothing. -/
theorem theArbiterChoosesExactlyOne : Obligations.TheArbiterChoosesExactlyOne := by
  refine ⟨fun s hidle hfree hoffer => ?_, fun c hc s => ⟨fun hno => ?_, fun hno => ?_, fun x q hs hne => ?_⟩⟩
  · obtain ⟨x, q, hs⟩ := State.exists_starts hidle hfree hoffer
    exact ⟨x, q, hs, fun y r hy => hs.unique hy⟩
  · refine exec_start_other hc fun x q hs => ?_
    obtain ⟨hidle, hfree, _⟩ := hs
    rcases hno with hbusy | hfull
    · exact absurd hidle hbusy
    · omega
  · refine exec_start_other hc fun x q hs => ?_
    have hoffer := hs.offered
    rw [hno x] at hoffer
    cases hoffer
  · refine exec_start_other hc fun y r hy => ?_
    obtain ⟨rfl, rfl⟩ := hs.unique hy
    exact hne

/-- The offer of a pending set is its lowest record (R67, R69). -/
theorem map_lowestSet_eq_some (v : Vector Bool 64) (i : RecordNo) :
    (lowestSet v).map Request.internal = some (.internal i) ↔
      look v i = true ∧ ∀ j, j < i → look v j = false := by
  rw [← lowestSet_eq_some, Option.map_eq_some_iff]
  exact ⟨fun ⟨j, hj, he⟩ => by cases he; exact hj, fun h => ⟨i, h, rfl⟩⟩

/-- A start from the Command Queue takes the back-up where it holds one (R79). -/
theorem State.begun_backup {s : State} (h : s.backup ≠ none) (r : CommandRecord) :
    s.begun .commandQueue (.command r) = { s with backup := none, reserved := s.reserved + 1 } := by
  obtain ⟨w, hw⟩ := Option.ne_none_iff_exists'.mp h
  simp only [State.begun, hw]

/-- A start from the Command Queue with an empty back-up takes the queue's head (R79). -/
theorem State.begun_queue {s : State} (h : s.backup = none) (r : CommandRecord) :
    s.begun .commandQueue (.command r) =
      { s with commandQueue := s.commandQueue.tail, reserved := s.reserved + 1 } := by
  simp only [State.begun, h]

/-- Settles O17: the offers and what a start takes, source by source. -/
theorem sourcesOfferAndGiveUpRequests : Obligations.SourcesOfferAndGiveUpRequests := by
  refine fun s => ⟨rfl, map_lowestSet_eq_some _, map_lowestSet_eq_some _, map_lowestSet_eq_some _, fun r h => ?_,
    fun h hg => ?_, fun h hg => ?_, fun _ => rfl, fun _ => rfl, fun _ => rfl, fun _ => rfl,
    fun r h => State.begun_backup h r, fun r h => State.begun_queue h r⟩
  · simp only [State.offer, h]
  · simp [State.offer, h, hg]
  · simp [State.offer, h, hg]

/-! ## What a start of each host command gives (R46) -/

section
variable {s : State} {x : Source} {r : CommandRecord} (hs : s.Starts x (.command r))
include hs

theorem exec_create_starts {p : CreateParams} (hr : r.command = .create p) :
    exec .create s = .next ((s.begun x (.command r)).checked r ((s.begun x (.command r)).createDenial p)
      ((s.begun x (.command r)).enterScan x r .mutualComparison)) :=
  congrArg Host.Outcome.next (State.startHost_starts _ _ hs (by rw [hr]; rfl))

theorem exec_amend_starts {p : AmendParams} (hr : r.command = .amend p) :
    exec .amend s = .next ((s.begun x (.command r)).checked r ((s.begun x (.command r)).amendDenial p)
      ((s.begun x (.command r)).enterScan x r .mutualComparison)) :=
  congrArg Host.Outcome.next (State.startHost_starts _ _ hs (by rw [hr]; rfl))

theorem exec_definePlane_starts {p : PlaneParams} (hr : r.command = .definePlane p) :
    exec .definePlane s = .next ((s.begun x (.command r)).checked r p.denial
      ((s.begun x (.command r)).enterScan x r ((s.begun x (.command r)).planeNext 0))) :=
  congrArg Host.Outcome.next (State.startHost_starts _ _ hs (by rw [hr]; rfl))

/-- A refusal or a completion in the start event is the newest response, with the handle that the command names, or the
one it found (R53, R59). -/
theorem State.Starts.finish (st : Status) (d : Payload) (found : Option Handle) :
    (s.begun x (.command r)).finish r st d found = s.answered x r st (r.command.namedHandle <|> found) d :=
  State.finish_begun hs.1 x r st d found

/-- Start checks that fail: the refusal is the newest response (R46, R92). -/
theorem State.Starts.checked_some (d : Denial) (passed : State) :
    (s.begun x (.command r)).checked r (some d) passed = s.answered x r d.1 (r.command.namedHandle <|> none) d.2 :=
  hs.finish d.1 d.2 none

end

@[simp] theorem State.begun_createDenial (s : State) (x : Source) (q : Request) (p : CreateParams) :
    (s.begun x q).createDenial p = s.createDenial p := by rw [State.begun_frame]; rfl

@[simp] theorem State.begun_amendDenial (s : State) (x : Source) (q : Request) (p : AmendParams) :
    (s.begun x q).amendDenial p = s.amendDenial p := by rw [State.begun_frame]; rfl

@[simp] theorem State.begun_planeNext (s : State) (x : Source) (q : Request) (n : Nat) :
    (s.begun x q).planeNext n = s.planeNext n := by rw [State.begun_frame]; rfl

/-- The handle that a command names stands in its result, whatever it found (R59). -/
theorem some_orElse_handle (h : Handle) (o : Option Handle) : (some h <|> o) = some h := rfl

end Sys2Proof.Machine

namespace Sys2Proof.Machine

/-! ## The handle check at a start (R9, R92) -/

/-- An AMEND whose handle is refused is refused with that (R97). -/
theorem State.amendDenial_refused {s : State} {p : AmendParams} {d : Denial} (h : s.checkLive p.handle = .inl d) :
    s.amendDenial p = some d := by simp only [State.amendDenial, h]

section
variable {s : State} {x : Source} {r : CommandRecord} (hs : s.Starts x (.command r))
include hs

/-- A host command with no phase, run by the arbiter on the state of its start. -/
theorem State.Starts.run {α : Type} {pick : Command → Option α} {a : α} (ha : pick r.command = some a)
    (run : Source → CommandRecord → α → State → State) :
    (Host.Outcome.next (s.startHost pick run) : Host.Outcome State Fault Refusal) =
      .next (run x r a (s.begun x (.command r))) :=
  congrArg Host.Outcome.next (State.startHost_starts pick run hs ha)

theorem exec_amend_refused {p : AmendParams} (hr : r.command = .amend p) {d : Denial} (h : s.amendDenial p = some d) :
    exec .amend s = .next (s.answered x r d.1 (some p.handle) d.2) := by
  rw [exec_amend_starts hs hr, State.begun_amendDenial, h, hs.checked_some, hr]
  rfl

theorem exec_setAttributes_refused {p : AttributeParams} (hr : r.command = .setAttributes p) {d : Denial}
    (h : s.checkLive p.handle = .inl d) :
    exec .setAttributes s = .next (s.answered x r d.1 (some p.handle) d.2) := by
  refine (hs.run (a := p) (by rw [hr]; rfl) _).trans (congrArg Host.Outcome.next ?_)
  simp only [State.begun_checkLive, h]
  rw [hs.finish, hr]
  rfl

theorem exec_retire_refused {handle : Handle} {abort : Bool} (hr : r.command = .retire handle abort) {d : Denial}
    (h : s.checkLive handle = .inl d) :
    exec .retire s = .next (s.answered x r d.1 (some handle) d.2) := by
  refine (hs.run (a := (handle, abort)) (by rw [hr]; rfl) _).trans (congrArg Host.Outcome.next ?_)
  simp only [State.begun_checkLive, h]
  rw [hs.finish, hr]
  rfl

/-- The three commands that refuse the handle of a record that is not LIVE. -/
theorem exec_handle_refused {h : Handle} {c : Instr} {d : Denial}
    (hc : (∃ p : AmendParams, r.command = .amend p ∧ p.handle = h ∧ c = .amend) ∨
      (∃ p : AttributeParams, r.command = .setAttributes p ∧ p.handle = h ∧ c = .setAttributes) ∨
      ∃ abort, r.command = .retire h abort ∧ c = .retire) (hd : s.checkLive h = .inl d) :
    exec c s = .next (s.answered x r d.1 (some h) d.2) := by
  rcases hc with ⟨p, hr, rfl, rfl⟩ | ⟨p, hr, rfl, rfl⟩ | ⟨abort, hr, rfl⟩
  · exact exec_amend_refused hs hr (State.amendDenial_refused hd)
  · exact exec_setAttributes_refused hs hr hd
  · exact exec_retire_refused hs hr hd

theorem exec_readCounters_record {p : CounterParams} (hr : r.command = .readCounters p) (hk : p.kind = 0) :
    exec .readCounters s = .next ((s.begun x (.command r)).readRecordCounters r p) := by
  refine (hs.run (a := p) (by rw [hr]; rfl) _).trans (congrArg Host.Outcome.next ?_)
  exact if_pos hk

end

/-- Settles O18: each command through the check of its handle. -/
theorem handlesAreCheckedFirst : Obligations.HandlesAreCheckedFirst := by
  intro s x r h hs
  refine ⟨fun c hc => ⟨fun hstale => ?_, fun i p hn hd => ?_⟩, fun p hr hk hp hstale => ?_⟩
  · exact exec_handle_refused hs hc (State.checkLive_stale hstale)
  · exact exec_handle_refused hs hc (State.checkLive_draining hn hd)
  · have hcheck : s.checkHandle p.handle = .stale := (State.checkHandle_stale s p.handle).mpr (hp ▸ hstale)
    have hnamed : r.command.namedHandle = some h := by rw [hr, ← hp]; exact if_pos hk
    rw [exec_readCounters_record hs hr hk]
    simp only [State.readRecordCounters, State.begun_checkHandle, hcheck]
    rw [hs.finish, hnamed]
    rfl

/-! ## The checks on a new slot (R36 to R38) -/

/-- No description fails a check that all pass. -/
theorem firstFailing_eq_none {fails : DestDesc → Bool} {ds : List DestDesc} :
    firstFailing fails ds = none ↔ ∀ d ∈ ds, fails d = false := by
  simp [firstFailing, List.findIdx?_eq_none_iff]

/-- The first description that fails a check is reported by its position, from 1. -/
theorem firstFailing_eq_some {fails : DestDesc → Bool} {ds : List DestDesc} {k : Nat} :
    firstFailing fails ds = some (k + 1) ↔
      (∃ d, ds[k]? = some d ∧ fails d = true) ∧ ∀ j d, j < k → ds[j]? = some d → fails d = false := by
  simp only [firstFailing, Option.map_eq_some_iff, Nat.add_right_cancel_iff, exists_eq_right,
    List.findIdx?_eq_some_iff_getElem]
  constructor
  · rintro ⟨hk, hfail, hbefore⟩
    refine ⟨⟨ds[k], List.getElem?_eq_getElem hk, hfail⟩, fun j d hj hd => ?_⟩
    obtain ⟨hlt, rfl⟩ := List.getElem?_eq_some_iff.mp hd
    simpa using hbefore j hj
  · rintro ⟨⟨d, hd, hfail⟩, hbefore⟩
    obtain ⟨hk, rfl⟩ := List.getElem?_eq_some_iff.mp hd
    exact ⟨hk, hfail, fun j hj => by simp [hbefore j _ hj (List.getElem?_eq_getElem (by omega))]⟩

/-- The first failing position, told by what the check asks for. -/
theorem firstFailing_iff {fails : DestDesc → Bool} {good : DestDesc → Prop} (hgood : ∀ d, fails d = false ↔ good d)
    (ds : List DestDesc) :
    (firstFailing fails ds = none ↔ ∀ d ∈ ds, good d) ∧
      ∀ k, firstFailing fails ds = some (k + 1) ↔
        (∃ d, ds[k]? = some d ∧ ¬ good d) ∧ ∀ j d, j < k → ds[j]? = some d → good d := by
  simp only [firstFailing_eq_none, firstFailing_eq_some, ← hgood, Bool.not_eq_false, implies_true, and_self]

/-- Positions count from 1. -/
theorem firstFailing_ne_zero {fails : DestDesc → Bool} {ds : List DestDesc} : firstFailing fails ds ≠ some 0 := by
  simp [firstFailing]

/-- A size from 1 to 4096 is not bad (R36). -/
theorem badSize_eq_false {n : U16} : badSize n = false ↔ 1 ≤ n.toNat ∧ n.toNat ≤ 4096 := by
  simp only [badSize, decide_eq_false_iff_not]
  omega

/-- What the geometry check asks of a description (R36). -/
theorem DestDesc.badGeometry_eq_false {d : DestDesc} {w h : U16} :
    d.badGeometry w h = false ↔
      (1 ≤ d.width.toNat ∧ d.width.toNat ≤ 4096) ∧ (1 ≤ d.height.toNat ∧ d.height.toNat ≤ 4096) ∧ d.x.toNat ≤ 8191 ∧
        d.y.toNat ≤ 8191 ∧ d.cropX.toNat + d.width.toNat ≤ w.toNat ∧ d.cropY.toNat + d.height.toNat ≤ h.toNat := by
  simp only [DestDesc.badGeometry, Bool.or_eq_false_iff, badSize_eq_false, decide_eq_false_iff_not, Nat.not_lt, and_assoc]

/-- The geometry check with a good source size and count is that of the descriptions; with another it fails at 0. -/
theorem geometryFault_eq (w h : U16) (n : Byte) (ds : List DestDesc) :
    geometryFault w h n ds =
      if (1 ≤ w.toNat ∧ w.toNat ≤ 4096) ∧ (1 ≤ h.toNat ∧ h.toNat ≤ 4096) ∧ 1 ≤ n.toNat ∧ n.toNat ≤ 4 then
        firstFailing (fun d => d.badGeometry w h) ds
      else some 0 := by
  unfold geometryFault
  by_cases hsize : badSize w = false ∧ badSize h = false
  · obtain ⟨hw, hh⟩ := hsize
    rw [if_neg (by simp [hw, hh])]
    have hw' := badSize_eq_false.mp hw
    have hh' := badSize_eq_false.mp hh
    by_cases hcount : 1 ≤ n.toNat ∧ n.toNat ≤ 4
    · rw [if_neg (by omega), if_pos ⟨hw', hh', hcount⟩]
    · rw [if_pos (by omega), if_neg (by tauto)]
  · rw [if_pos (by simpa [-Bool.not_eq_true, ← Bool.not_eq_false, imp_iff_not_or, not_and_or] using hsize), if_neg]
    rw [badSize_eq_false, badSize_eq_false] at hsize
    tauto

/-- A test of a description's plane passes when the test of the plane does, if the plane is defined. -/
theorem State.onPlane_eq_false {s : State} {test : DestDesc → Plane → Bool} {d : DestDesc} :
    s.onPlane test d = false ↔ ∀ p, s.plane? d.plane = some p → test d p = false := by
  unfold State.onPlane
  cases s.plane? d.plane <;> simp

/-- What the bounds check asks of a description on its plane (R37). -/
theorem DestDesc.outside_eq_false {d : DestDesc} {p : Plane} :
    d.outside p = false ↔
      d.x.toNat + d.width.toNat ≤ p.width.toNat ∧ d.y.toNat + d.height.toNat ≤ p.height.toNat := by
  simp [DestDesc.outside]

/-- The geometry part of the slot checks, fault by fault. -/
theorem geometryFault_spec (w h : U16) (n : Byte) (ds : List DestDesc) :
    let fits (m : U16) : Prop := 1 ≤ m.toNat ∧ m.toNat ≤ 4096
    let good (d : DestDesc) : Prop :=
      fits d.width ∧ fits d.height ∧ d.x.toNat ≤ 8191 ∧ d.y.toNat ≤ 8191 ∧
        d.cropX.toNat + d.width.toNat ≤ w.toNat ∧ d.cropY.toNat + d.height.toNat ≤ h.toNat
    let top : Prop := fits w ∧ fits h ∧ 1 ≤ n.toNat ∧ n.toNat ≤ 4
    (geometryFault w h n ds = none ↔ top ∧ ∀ d ∈ ds, good d) ∧
    (geometryFault w h n ds = some 0 ↔ ¬ top) ∧
    ∀ k : Nat, geometryFault w h n ds = some (k + 1) ↔
      top ∧ (∃ d, ds[k]? = some d ∧ ¬ good d) ∧ ∀ j d, j < k → ds[j]? = some d → good d := by
  intro fits good top
  obtain ⟨hnone, hsome⟩ := firstFailing_iff (fun d => DestDesc.badGeometry_eq_false (d := d) (w := w) (h := h)) ds
  rw [geometryFault_eq]
  by_cases htop : top
  · rw [if_pos htop]
    exact ⟨hnone.trans (by simp [htop, good, fits]), by simp [htop, firstFailing_ne_zero],
      fun k => (hsome k).trans (by simp [htop, good, fits])⟩
  · rw [if_neg htop]
    simp [htop]

/-- The plane and pool part of the slot checks, by what each of the four finds in the whole list. -/
theorem State.slotDenial_spec (s : State) (l : LinkNo) (ds : List DestDesc) :
    let undefined := firstFailing (fun d => (s.plane? d.plane).isNone) ds
    let mismatch := firstFailing (s.onPlane fun _ p => decide (p.pixelSize ≠ (look s.links l).pixelSize)) ds
    let outside := firstFailing (s.onPlane DestDesc.outside) ds
    (s.slotDenial l ds = none ↔ undefined = none ∧ mismatch = none ∧ outside = none ∧ ds.length ≤ s.poolFree) ∧
    (∀ n, s.slotDenial l ds = some (.planeUndefined, .position n) ↔ undefined = some n) ∧
    (∀ n, s.slotDenial l ds = some (.pixelMismatch, .position n) ↔ undefined = none ∧ mismatch = some n) ∧
    (∀ n, s.slotDenial l ds = some (.outsidePlane, .position n) ↔
      undefined = none ∧ mismatch = none ∧ outside = some n) ∧
    (s.slotDenial l ds = some (.poolShort, .shortage s.poolFree ds.length) ↔
      undefined = none ∧ mismatch = none ∧ outside = none ∧ s.poolFree < ds.length) := by
  unfold State.slotDenial
  generalize firstFailing (fun d => (s.plane? d.plane).isNone) ds = undefined
  generalize firstFailing (s.onPlane fun _ p => decide (p.pixelSize ≠ (look s.links l).pixelSize)) ds = mismatch
  generalize firstFailing (s.onPlane DestDesc.outside) ds = outside
  rcases undefined with _ | n
  · rcases mismatch with _ | n
    · rcases outside with _ | n
      · by_cases hpool : s.poolFree < ds.length
        · simp [hpool]
        · simp [hpool, Nat.not_lt.mp hpool]
      · simp
    · simp
  · simp

/-- Settles O19: the geometry check by `geometryFault_spec`, the other four by `State.slotDenial_spec`, each told by what
it asks of a description. -/
theorem slotChecksRunInOrder : Obligations.SlotChecksRunInOrder := by
  refine ⟨geometryFault_spec, fun s l ds => ?_⟩
  intro defined fits inside
  obtain ⟨hdefined, hundefinedAt⟩ := firstFailing_iff (good := defined)
    (fails := fun d => (s.plane? d.plane).isNone) (fun d => by cases hp : s.plane? d.plane <;> simp [defined, hp]) ds
  obtain ⟨hfits, hmismatchAt⟩ := firstFailing_iff (good := fits)
    (fails := s.onPlane fun _ p => decide (p.pixelSize ≠ (look s.links l).pixelSize))
    (fun d => by simp [State.onPlane_eq_false, fits]) ds
  obtain ⟨hinside, houtsideAt⟩ := firstFailing_iff (good := inside) (fails := s.onPlane DestDesc.outside)
    (fun d => by simp only [State.onPlane_eq_false, DestDesc.outside_eq_false, inside]) ds
  obtain ⟨hnone, hundefined, hmismatch, houtside, hshort⟩ := s.slotDenial_spec l ds
  rw [← hdefined, ← hfits, ← hinside]
  exact ⟨hnone, fun n => (hundefined _).trans (hundefinedAt n),
    fun n => (hmismatch _).trans (and_congr_right fun _ => hmismatchAt n),
    fun n => (houtside _).trans (and_congr_right fun _ => and_congr_right fun _ => houtsideAt n), hshort⟩

end Sys2Proof.Machine

/-! SUPPORT. The starts of CREATE, AMEND and DEFINE-PLANE: their start checks in order, and the scan they enter (R28, R46,
R49, R94, R97). -/

namespace Sys2Proof.Machine

/-! ## CREATE (R94) -/

/-- Two bytes are read as the key that they hold. -/
theorem Key.ofBytes?_eq_some {link channel : Byte} {k : Key} :
    Key.ofBytes? link channel = some k ↔ k.link.val = link.toNat ∧ k.channel.val = channel.toNat := by
  rw [← inRange?_eq_some, ← inRange?_eq_some, Key.ofBytes?]
  obtain ⟨l, c⟩ := k
  cases inRange? 6 link <;> cases inRange? 16 channel <;> simp

/-- Two bytes of which one is out of range are no key. -/
theorem Key.ofBytes?_eq_none {link channel : Byte} :
    Key.ofBytes? link channel = none ↔ 5 < link.toNat ∨ 15 < channel.toNat := by
  rw [Nat.lt_iff_add_one_le, Nat.lt_iff_add_one_le, ← inRange?_eq_none (n := 6), ← inRange?_eq_none (n := 16),
    Key.ofBytes?]
  cases inRange? 6 link <;> cases inRange? 16 channel <;> simp

section
variable {s : State} {x : Source} {r : CommandRecord} (hs : s.Starts x (.command r))
include hs

theorem exec_create_refused {p : CreateParams} (hr : r.command = .create p) {d : Denial}
    (h : s.createDenial p = some d) : exec .create s = .next (s.answered x r d.1 none d.2) := by
  rw [exec_create_starts hs hr, State.begun_createDenial, h, hs.checked_some, hr]
  rfl

theorem exec_create_passed {p : CreateParams} (hr : r.command = .create p) (h : s.createDenial p = none) :
    exec .create s = .next ((s.begun x (.command r)).enterScan x r .mutualComparison) := by
  rw [exec_create_starts hs hr, State.begun_createDenial, h]
  rfl

theorem exec_amend_passed {p : AmendParams} (hr : r.command = .amend p) (h : s.amendDenial p = none) :
    exec .amend s = .next ((s.begun x (.command r)).enterScan x r .mutualComparison) := by
  rw [exec_amend_starts hs hr, State.begun_amendDenial, h]
  rfl

theorem exec_definePlane_refused {p : PlaneParams} (hr : r.command = .definePlane p) {d : Denial}
    (h : p.denial = some d) : exec .definePlane s = .next (s.answered x r d.1 none d.2) := by
  rw [exec_definePlane_starts hs hr, h, hs.checked_some, hr]
  rfl

theorem exec_definePlane_passed {p : PlaneParams} (hr : r.command = .definePlane p) (h : p.denial = none) :
    exec .definePlane s = .next ((s.begun x (.command r)).enterScan x r (s.planeNext 0)) := by
  rw [exec_definePlane_starts hs hr, h, State.begun_planeNext]
  rfl

end

section
variable {s : State} {p : CreateParams} (hg : geometryFault p.width p.height p.count p.used = none)
include hg

theorem State.createDenial_badKey (h : 5 < p.link.toNat ∨ 15 < p.channel.toNat) :
    s.createDenial p = some (.badKey, .empty) := by
  simp only [State.createDenial, hg, Key.ofBytes?_eq_none.mpr h]

variable {k : Key} (hk : Key.ofBytes? p.link p.channel = some k)
include hk

theorem State.createDenial_singleMode (h : (look s.links k.link).single = true ∧ k.channel ≠ 0) :
    s.createDenial p = some (.badKey, .empty) := by
  simp only [State.createDenial, hg, hk]
  exact if_pos h

variable (hmode : (look s.links k.link).single = true → k.channel = 0)
include hmode

/-- With a good geometry and a key that the link's mode allows, the Key Index, the table and then the slot are checked. -/
theorem State.createDenial_keyed :
    s.createDenial p = match look s.keyIndex k.place with
      | some i => some (.duplicateKey, .record i)
      | none => if s.tableFree = 0 then some (.tableFull, .empty) else s.slotDenial k.link p.used := by
  simp only [State.createDenial, hg, hk]
  exact if_neg fun ⟨hsingle, hne⟩ => hne (hmode hsingle)

end

/-- Settles O20: the start checks in the order in which `State.createDenial` makes them. -/
theorem createStartsOrIsRefused : Obligations.CreateStartsOrIsRefused := by
  intro s x r p hs hr
  have refused {d : Denial} : s.createDenial p = some d → exec .create s = .next (s.answered x r d.1 none d.2) :=
    exec_create_refused hs hr
  refine ⟨fun n hn => ?_, fun hg => ⟨fun hkey => ?_, fun k hl hc => ?_⟩⟩
  · exact refused (d := (.badGeometry, .position n)) (by simp only [State.createDenial, hn])
  · exact refused (State.createDenial_badKey hg hkey)
  · have hk : Key.ofBytes? p.link p.channel = some k := Key.ofBytes?_eq_some.mpr ⟨hl, hc⟩
    refine ⟨fun hsingle => refused (State.createDenial_singleMode hg hk hsingle), fun hmode => ?_⟩
    have hdenial := State.createDenial_keyed (s := s) hg hk hmode
    refine ⟨fun i hi => ?_, fun hfree => ⟨fun hfull => ?_, fun hroom => ⟨fun d hd => ?_, fun hd => ?_⟩⟩⟩
    · exact refused (d := (.duplicateKey, .record i)) (by rw [hdenial, hi])
    · exact refused (d := (.tableFull, .empty)) (by rw [hdenial, hfree]; exact if_pos hfull)
    · exact refused (by rw [hdenial, hfree, ← hd]; exact if_neg hroom)
    · exact exec_create_passed hs hr (by rw [hdenial, hfree, ← hd]; exact if_neg hroom)

/-! ## AMEND (R97) -/

/-- The pending slot of a record with a STAGED one. -/
theorem Placement.pendingPhase_staged {b : Placement} (h : b.slotsIn .staged ≠ []) :
    b.pendingPhase = some .staged := by
  obtain ⟨g, hg⟩ := Option.ne_none_iff_exists'.mp (mt (b.find?_eq_none .staged).mp h)
  rw [Placement.pendingPhase, hg]

/-- With no STAGED slot the pending one is SUPERSEDED. -/
theorem Placement.pendingPhase_superseded {b : Placement} (hstaged : b.slotsIn .staged = [])
    (h : b.slotsIn .superseded ≠ []) : b.pendingPhase = some .superseded := by
  obtain ⟨g, hg⟩ := Option.ne_none_iff_exists'.mp (mt (b.find?_eq_none .superseded).mp h)
  rw [Placement.pendingPhase, (b.find?_eq_none .staged).mpr hstaged, hg]
  rfl

/-- No AMEND is pending exactly when no slot is STAGED or SUPERSEDED. -/
theorem Placement.pendingPhase_eq_none {b : Placement} :
    b.pendingPhase = none ↔ b.slotsIn .staged = [] ∧ b.slotsIn .superseded = [] := by
  rw [Placement.pendingPhase, ← b.find?_eq_none, ← b.find?_eq_none]
  cases b.find? .staged <;> simp

/-! The checks of an AMEND of a LIVE record, in order (R97). -/

section
variable {s : State} {p : AmendParams} {i : RecordNo} {b : Placement} (hn : s.Names p.handle i b) (hd : b.drain = none)
include hn hd

theorem State.amendDenial_pending {ph : SlotPhase} (h : b.pendingPhase = some ph) :
    s.amendDenial p = some (.amendPending, .slotPhase ph) := by
  simp only [State.amendDenial, State.checkLive_live hn hd, h]

variable (hb : b.pendingPhase = none)
include hb

theorem State.amendDenial_badGeometry {n : Nat} (h : geometryFault p.width p.height p.count p.used = some n) :
    s.amendDenial p = some (.badGeometry, .position n) := by
  simp only [State.amendDenial, State.checkLive_live hn hd, hb, h]

theorem State.amendDenial_slot (h : geometryFault p.width p.height p.count p.used = none) :
    s.amendDenial p = s.slotDenial b.key.link p.used := by
  simp only [State.amendDenial, State.checkLive_live hn hd, hb, h]

end

/-- Settles O21: the start checks in the order in which `State.amendDenial` makes them. -/
theorem amendStartsOrIsRefused : Obligations.AmendStartsOrIsRefused := by
  intro s x r p i b hs hr hn hd
  have refused {d : Denial} : s.amendDenial p = some d → exec .amend s = .next (s.answered x r d.1 (some p.handle) d.2) :=
    exec_amend_refused hs hr
  refine ⟨fun hstaged => ?_, fun hstaged hsuper => ?_, fun hstaged hsuper => ?_⟩
  · exact refused (State.amendDenial_pending hn hd (Placement.pendingPhase_staged hstaged))
  · exact refused (State.amendDenial_pending hn hd (Placement.pendingPhase_superseded hstaged hsuper))
  · have hb : b.pendingPhase = none := Placement.pendingPhase_eq_none.mpr ⟨hstaged, hsuper⟩
    refine ⟨fun n hg => ?_, fun hg => ⟨fun d hslot => ?_, fun hslot => ?_⟩⟩
    · exact refused (State.amendDenial_badGeometry hn hd hb hg)
    · exact refused ((State.amendDenial_slot hn hd hb hg).trans hslot)
    · exact exec_amend_passed hs hr ((State.amendDenial_slot hn hd hb hg).trans hslot)

/-! ## DEFINE-PLANE (R28) -/

/-- A pixel size field is read as the size with that many bytes (R28). -/
theorem PixelSize.ofByte?_eq_some {b : Byte} {z : PixelSize} :
    PixelSize.ofByte? b = some z ↔ (b = 2 ∨ b = 4) ∧ z.bytes = b.toNat := by
  unfold PixelSize.ofByte?
  split_ifs with h2 h4
  · subst h2; cases z <;> simp [PixelSize.bytes]
  · subst h4; cases z <;> simp [PixelSize.bytes]
  · exact ⟨fun h => (by cases h), fun h => absurd h.1 (not_or.mpr ⟨h2, h4⟩)⟩

/-- A definition that R28 accepts. -/
theorem PlaneParams.badDefinition_eq_false {p : PlaneParams} :
    p.badDefinition = false ↔
      p.width.toNat ≤ 8192 ∧ 1 ≤ p.height.toNat ∧ p.height.toNat ≤ 8192 ∧ p.base.toNat % 256 = 0 ∧
        64 ≤ p.pitch.toNat ∧ p.pitch.toNat ≤ 65536 ∧ p.pitch.toNat % 64 = 0 ∧
        (p.pixelSize = 2 ∨ p.pixelSize = 4) ∧ p.width.toNat * p.pixelSize.toNat ≤ p.pitch.toNat ∧
        p.base.toNat + p.pitch.toNat * p.height.toNat - 1 ≤ 0xFFFFFFFF := by
  unfold PlaneParams.badDefinition
  cases hz : PixelSize.ofByte? p.pixelSize with
  | none =>
    have hsize : ¬ (p.pixelSize = 2 ∨ p.pixelSize = 4) := by
      rintro (h | h) <;> rw [h] at hz <;> cases hz
    simp only [Bool.or_true, Bool.true_or, Bool.true_eq_false, hsize, false_and, and_false]
  | some z =>
    obtain ⟨hsize, hbytes⟩ := PixelSize.ofByte?_eq_some.mp hz
    simp only [Bool.or_eq_false_iff, decide_eq_false_iff_not, hsize, hbytes, true_and]
    omega

/-- The parameters of a DEFINE-PLANE that passes its checks (R28). -/
theorem PlaneParams.denial_eq_none {p : PlaneParams} :
    p.denial = none ↔ p.plane.toNat ≤ 3 ∧ (p.width = 0 ∨ p.badDefinition = false) := by
  unfold PlaneParams.denial
  split_ifs with h
  · refine ⟨fun hn => (by cases hn), fun ⟨hplane, hgood⟩ => ?_⟩
    rcases h with h | ⟨hwidth, hbad⟩
    · omega
    · rcases hgood with hgood | hgood
      · exact absurd hgood hwidth
      · rw [hbad] at hgood; cases hgood
  · refine ⟨fun _ => ⟨by omega, ?_⟩, fun _ => rfl⟩
    by_cases hwidth : p.width = 0
    · exact .inl hwidth
    · exact .inr (by simpa [hwidth] using fun hbad => h (.inr ⟨hwidth, hbad⟩))

/-- Every refusal of a DEFINE-PLANE at its start is BAD_PARAMETER (R28). -/
theorem PlaneParams.denial_eq_some {p : PlaneParams} (h : p.denial ≠ none) :
    p.denial = some (.badParameter, .empty) := by
  unfold PlaneParams.denial at h ⊢
  split_ifs at h ⊢ with hbad
  · rfl
  · exact absurd rfl h

/-- With no OCCUPIED entry at or above an index a plane scan compares ranges next (R29, R49). -/
theorem State.planeNext_of_free {s : State} {n : Nat} (h : ∀ e : EntryNo, n ≤ e.val → look s.pool e = none) :
    s.planeNext n = .planeRanges := by
  rw [State.planeNext, (s.nextOccupied_eq_none n).mpr h]

/-- The lowest OCCUPIED entry at or above an index is a plane scan's next visit (R29, R49). -/
theorem State.planeNext_of_lowest {s : State} {n : Nat} {e : EntryNo} (hn : n ≤ e.val) (he : look s.pool e ≠ none)
    (h : ∀ g : EntryNo, n ≤ g.val → g < e → look s.pool g = none) : s.planeNext n = .visit e := by
  rw [State.planeNext, (s.nextOccupied_eq_some n e).mpr ⟨hn, he, h⟩]

/-- Settles O22: the parameters by `PlaneParams.denial_eq_none`, the first position by the lowest OCCUPIED entry. -/
theorem definePlaneStartsOrIsRefused : Obligations.DefinePlaneStartsOrIsRefused := by
  intro s x r p hs hr good
  have hgood : p.denial = none ↔ good := by
    rw [PlaneParams.denial_eq_none, PlaneParams.badDefinition_eq_false]
  refine ⟨fun hbad => ?_, fun hok => ⟨_, exec_definePlane_passed hs hr (hgood.mpr hok), fun hfree => ?_, ?_⟩⟩
  · exact exec_definePlane_refused hs hr (PlaneParams.denial_eq_some (mt hgood.mp hbad))
  · exact State.planeNext_of_free fun e _ => hfree e
  · exact fun e he hbelow => State.planeNext_of_lowest (Nat.zero_le _) he fun g _ hg => hbelow g hg

end Sys2Proof.Machine

/-! SUPPORT. Scans: one step of a scan, what its verdict is at each position, and what its completion leaves (R29, R34,
R39, R40, R49, R53, R95, R98, R107). -/

namespace Sys2Proof.Machine

/-! ## One step of a scan (R49) -/

theorem exec_scanStep {s : State} {op : ScanOperation} (he : s.engine = .scan op) :
    exec .scanStep s = .next (s.stepScan op) := by
  change execScanStep s = _
  simp only [execScanStep, he]

/-- Where the next step ends the scan in flight, its completion command is that step (log 2). -/
theorem State.endScan_eq {s : State} {op : ScanOperation} {kind : Command → Bool} (he : s.engine = .scan op)
    (hk : kind op.request.command = true) (hv : ∀ q, s.scanVerdict op ≠ .goOn q) : s.endScan kind = s.stepScan op := by
  have hends : s.scanEnds kind = some op := by
    simp only [State.scanEnds, he, hk, if_true]
    cases h : s.scanVerdict op with
    | goOn q => exact absurd h (hv q)
    | conflict _ _ | clear => rfl
  rw [State.endScan, hends]

/-- A result carries the handle that its command names where nothing else was found. -/
theorem orElse_none_handle (o : Option Handle) : (o <|> none) = o := by cases o <;> rfl

/-- A host command that completes with nothing found posts its result (R53, R59). -/
theorem State.finish_eq_concluded (s : State) (r : CommandRecord) (st : Status) (d : Payload) :
    s.finish r st d = s.concluded (.result r.tag r.command.code st r.command.namedHandle d) := by
  rw [State.finish, orElse_none_handle]
  rfl

theorem State.stepScan_goOn {s : State} {op : ScanOperation} {q : ScanPosition} (h : s.scanVerdict op = .goOn q) :
    s.stepScan op = { s with engine := .scan { op with position := q } } := by
  simp only [State.stepScan, h]

theorem State.stepScan_conflict {s : State} {op : ScanOperation} {st : Status} {d : Payload}
    (h : s.scanVerdict op = .conflict st d) :
    s.stepScan op = { s with draws := s.draws + 1 }.finish op.request st d := by
  simp only [State.stepScan, h]

theorem State.stepScan_clear {s : State} {op : ScanOperation} (h : s.scanVerdict op = .clear) :
    s.stepScan op = s.completeScan op.request := by
  simp only [State.stepScan, h]

/-- Settles O23: by the verdict of the step. -/
theorem aScanGoesStepByStep : Obligations.AScanGoesStepByStep := by
  intro s op he
  refine ⟨fun q hq => ?_, fun st d hd => ?_, fun hv => ⟨fun hk => ?_, fun hk => ?_, fun hk => ?_⟩⟩
  · rw [exec_scanStep he, State.stepScan_goOn hq]
  · rw [exec_scanStep he, State.stepScan_conflict hd, State.finish_eq_concluded]
    rfl
  all_goals exact (congrArg Host.Outcome.next (State.endScan_eq he hk hv)).trans (exec_scanStep he).symm

/-! ## The overlap scan (R39, R40) -/

/-- What a step of an overlap scan finds next from an index on: the lowest OCCUPIED entry, or nothing (R40, R49). -/
theorem State.overlapNext_spec (s : State) (start : Nat) :
    ((∀ f : EntryNo, start ≤ f.val → look s.pool f = none) ∧ s.overlapNext start = .clear) ∨
      ∃ f : EntryNo, start ≤ f.val ∧ look s.pool f ≠ none ∧
        (∀ g : EntryNo, start ≤ g.val → g < f → look s.pool g = none) ∧ s.overlapNext start = .goOn (.visit f) := by
  unfold State.overlapNext
  cases h : s.nextOccupied start with
  | none => exact .inl ⟨(s.nextOccupied_eq_none start).mp h, rfl⟩
  | some f =>
    obtain ⟨hf, hocc, hlow⟩ := (s.nextOccupied_eq_some start f).mp h
    exact .inr ⟨f, hf, hocc, hlow, rfl⟩

/-- The mutual comparison ends the scan with a conflicting pair where there is one (R40). -/
theorem State.overlapVerdict_mutual_conflict {s : State} {own : Option RecordNo} {named : RecordNo} {ds : List DestDesc}
    (h : ∃ a b, (a, b) ∈ conflictsFrom 1 ds) :
    ∃ a b, (a, b) ∈ conflictsFrom 1 ds ∧
      s.overlapVerdict own named ds .mutualComparison = .conflict .overlap (.mutualOverlap named a b) := by
  obtain ⟨a, b, hab⟩ := h
  rcases chosenPair_mem s.draws (conflictsFrom 1 ds) with ⟨hnil, _⟩ | ⟨⟨a', b'⟩, hmem, hchosen⟩
  · rw [hnil] at hab; cases hab
  · exact ⟨a', b', hmem, by simp only [State.overlapVerdict, hchosen]⟩

/-- The mutual comparison goes on where no two descriptions share a pixel (R40). -/
theorem State.overlapVerdict_mutual_clear {s : State} {own : Option RecordNo} {named : RecordNo} {ds : List DestDesc}
    (h : ∀ a b, (a, b) ∉ conflictsFrom 1 ds) :
    s.overlapVerdict own named ds .mutualComparison = s.overlapNext 0 := by
  have hnil : conflictsFrom 1 ds = [] := List.eq_nil_iff_forall_not_mem.mpr fun ⟨a, b⟩ => h a b
  simp only [State.overlapVerdict, hnil, chosenPair]

/-- A visit ends the scan where the entry is not the amended record's and shares a pixel with a description (R40). -/
theorem State.overlapVerdict_visit_conflict {s : State} {own : Option RecordNo} {named : RecordNo} {ds : List DestDesc}
    {e : EntryNo} {en : Entry} (he : look s.pool e = some en)
    (h : own ≠ some en.owner ∧ ∃ d ∈ ds, d.rect.shares en.rect = true) :
    s.overlapVerdict own named ds (.visit e) = .conflict .overlap (.poolOverlap en.owner e) := by
  simp only [State.overlapVerdict, he]
  exact if_pos ⟨h.1, List.any_eq_true.mpr h.2⟩

/-- A visit goes on where the entry is the amended record's own or shares no pixel (R40). -/
theorem State.overlapVerdict_visit_clear {s : State} {own : Option RecordNo} {named : RecordNo} {ds : List DestDesc}
    {e : EntryNo} {en : Entry} (he : look s.pool e = some en)
    (h : own = some en.owner ∨ ∀ d ∈ ds, d.rect.shares en.rect = false) :
    s.overlapVerdict own named ds (.visit e) = s.overlapNext (e.val + 1) := by
  simp only [State.overlapVerdict, he]
  refine if_neg fun ⟨hown, hany⟩ => ?_
  obtain ⟨d, hd, hshares⟩ := List.any_eq_true.mp hany
  rcases h with h | h
  · exact hown h
  · rw [h d hd] at hshares; cases hshares

/-- The lowest number that passes a test. -/
theorem find?_finRange_eq_some {n : Nat} {test : Fin n → Bool} {i : Fin n} :
    (List.finRange n).find? test = some i ↔ test i = true ∧ ∀ j, j < i → test j = false := by
  rw [List.find?_eq_some_iff_getElem]
  constructor
  · rintro ⟨hi, k, hk, hki, hbelow⟩
    simp only [List.getElem_finRange, List.length_finRange] at hk hki
    subst hki
    exact ⟨hi, fun j hj => by simpa using hbelow j.val hj⟩
  · rintro ⟨hi, hbelow⟩
    exact ⟨hi, i.val, by simp, by simp, fun j hj => by simpa using hbelow ⟨j, by omega⟩ hj⟩

/-- No number passes a test. -/
theorem find?_finRange_eq_none {n : Nat} {test : Fin n → Bool} :
    (List.finRange n).find? test = none ↔ ∀ i, test i = false := by
  simp [List.find?_eq_none]

/-- The lowest FREE record (R1). -/
theorem State.lowestFree_eq_some (s : State) (i : RecordNo) :
    s.lowestFree = some i ↔ s.placement? i = none ∧ ∀ j, j < i → s.placement? j ≠ none := by
  unfold State.lowestFree State.freeRecords State.placement?
  rw [List.head?_filter, find?_finRange_eq_some]
  simp only [Option.isNone_iff_eq_none, Option.isNone_eq_false_iff, Option.isSome_iff_ne_none]

/-- The verdict of the CREATE or AMEND in flight is that of its overlap scan (R40, R49). -/
theorem State.scanVerdict_overlap {s : State} {op : ScanOperation} {own : Option RecordNo} {named : RecordNo}
    {ds : List DestDesc}
    (h : (∃ p, op.request.command = .create p ∧ ds = p.dests.toList.take p.count.toNat ∧ own = none ∧
        s.placement? named = none ∧ ∀ j, j < named → s.placement? j ≠ none) ∨
      ∃ p, op.request.command = .amend p ∧ ds = p.dests.toList.take p.count.toNat ∧ own = some named ∧
        named.val = p.handle.index.toNat) :
    s.scanVerdict op = s.overlapVerdict own named ds op.position := by
  rcases h with ⟨p, hc, rfl, rfl, hfree, hbelow⟩ | ⟨p, hc, rfl, rfl, hnamed⟩
  · have hlow : s.lowestFree = some named := (s.lowestFree_eq_some named).mpr ⟨hfree, hbelow⟩
    simp only [State.scanVerdict, hc, hlow]
    rfl
  · have hrecord : p.handle.record? = some named := inRange?_eq_some.mpr hnamed
    simp only [State.scanVerdict, hc, hrecord]
    rfl

/-- Settles O24: by the position of the scan and what is compared there. -/
theorem overlapScansCompareInOrder : Obligations.OverlapScansCompareInOrder := by
  intro s op own named ds hop next mutualPairs
  have hpairs (a b : Nat) : mutualPairs a b ↔ (a, b) ∈ conflictsFrom 1 ds := (mem_conflictsFrom ds 1 a b).symm
  rw [State.scanVerdict_overlap hop]
  simp only [hpairs]
  refine ⟨fun hpos => ⟨fun hsome => ?_, fun hnone => ?_⟩, fun e en hpos he => ⟨fun hmeets => ?_, fun hclear => ?_⟩⟩
  · rw [hpos]
    exact State.overlapVerdict_mutual_conflict hsome
  · rw [hpos, State.overlapVerdict_mutual_clear hnone]
    exact s.overlapNext_spec 0
  · rw [hpos, State.overlapVerdict_visit_conflict he hmeets]
  · rw [hpos, State.overlapVerdict_visit_clear he hclear]
    exact s.overlapNext_spec (e.val + 1)

/-! ## The plane scan (R29) -/

theorem State.scanVerdict_definePlane {s : State} {op : ScanOperation} {p : PlaneParams}
    (h : op.request.command = .definePlane p) : s.scanVerdict op = s.planeVerdict p op.position := by
  simp only [State.scanVerdict, h]

/-- A visit of an entry on the plane ends the scan (R29). -/
theorem State.planeVerdict_visit_conflict {s : State} {p : PlaneParams} {e : EntryNo} {en : Entry}
    (he : look s.pool e = some en) (h : en.plane.val = p.plane.toNat) :
    s.planeVerdict p (.visit e) = .conflict .planeInUse (.entryOwner e en.owner) := by
  simp only [State.planeVerdict, he]
  exact if_pos h

/-- A visit of an entry on another plane goes on (R29). -/
theorem State.planeVerdict_visit_clear {s : State} {p : PlaneParams} {e : EntryNo} {en : Entry}
    (he : look s.pool e = some en) (h : en.plane.val ≠ p.plane.toNat) :
    s.planeVerdict p (.visit e) = .goOn (s.planeNext (e.val + 1)) := by
  simp only [State.planeVerdict, he]
  exact if_neg h

/-- An undefinition asks for no descriptor (R28). -/
theorem PlaneParams.descriptor?_undefine {p : PlaneParams} (h : p.width = 0) : p.descriptor? = none := if_pos h

/-- The descriptor that a definition with a pixel size asks for (R28). -/
def PlaneParams.defined (p : PlaneParams) (z : PixelSize) : Plane :=
  { base := p.base, pitch := p.pitch, width := p.width, height := p.height, pixelSize := z }

/-- A definition asks for the descriptor of its parameters (R28). -/
theorem PlaneParams.descriptor?_define {p : PlaneParams} {z : PixelSize} (h : p.width ≠ 0)
    (hz : PixelSize.ofByte? p.pixelSize = some z) : p.descriptor? = some (p.defined z) := by
  rw [PlaneParams.descriptor?, if_neg h, hz]
  rfl

/-- Two planes clash when neither memory range ends below the other's base (R29). -/
theorem Plane.clashes_iff {p q : Plane} :
    p.clashes q = true ↔ p.base.toNat ≤ q.last ∧ q.base.toNat ≤ p.last := decide_eq_true_iff

/-- The plane that a definition clashes with: the lowest other one whose memory range shares a byte (R29). -/
def State.ClashesWith (s : State) (p : PlaneParams) (d : Plane) (q : PlaneNo) : Prop :=
  q.val ≠ p.plane.toNat ∧ ∃ o, look s.planes q = some o ∧ d.clashes o = true

/-- The test that the range comparison makes of a plane. -/
def State.clashTest (s : State) (p : PlaneParams) (d : Plane) (q : PlaneNo) : Bool :=
  decide (q.val ≠ p.plane.toNat) && ((look s.planes q).map d.clashes).getD false

theorem State.clashTest_iff {s : State} {p : PlaneParams} {d : Plane} {q : PlaneNo} :
    s.clashTest p d q = true ↔ s.ClashesWith p d q := by
  unfold State.clashTest State.ClashesWith
  cases look s.planes q <;> simp

/-- The range comparison of a definition takes the lowest plane that passes its test. -/
theorem State.clashingPlane_eq_find? {s : State} {p : PlaneParams} {d : Plane} (hd : p.descriptor? = some d) :
    s.clashingPlane p = (List.finRange 4).find? (s.clashTest p d) := by
  unfold State.clashingPlane
  rw [hd]
  refine congrArg (fun test => (List.finRange 4).find? test) (funext fun q => ?_)
  unfold State.clashTest
  cases look s.planes q <;> rfl

theorem State.clashingPlane_eq_some {s : State} {p : PlaneParams} {d : Plane} (hd : p.descriptor? = some d) (q : PlaneNo) :
    s.clashingPlane p = some q ↔ s.ClashesWith p d q ∧ ∀ q', q' < q → ¬ s.ClashesWith p d q' := by
  simp only [State.clashingPlane_eq_find? hd, find?_finRange_eq_some, State.clashTest_iff, ← Bool.not_eq_true]

theorem State.clashingPlane_eq_none {s : State} {p : PlaneParams} {d : Plane} (hd : p.descriptor? = some d) :
    s.clashingPlane p = none ↔ ∀ q, ¬ s.ClashesWith p d q := by
  simp only [State.clashingPlane_eq_find? hd, find?_finRange_eq_none, State.clashTest_iff, ← Bool.not_eq_true]

/-- Where no plane clashes the range comparison ends the scan clear (R29). -/
theorem State.planeVerdict_ranges_clear {s : State} {p : PlaneParams} (h : s.clashingPlane p = none) :
    s.planeVerdict p .planeRanges = .clear := by
  simp only [State.planeVerdict, h]

/-- The range comparison names the plane that clashes (R29). -/
theorem State.planeVerdict_ranges_conflict {s : State} {p : PlaneParams} {q : PlaneNo}
    (h : s.clashingPlane p = some q) : s.planeVerdict p .planeRanges = .conflict .planeClash (.plane q) := by
  simp only [State.planeVerdict, h]

/-- An undefinition clashes with no plane (R29). -/
theorem State.clashingPlane_undefine {s : State} {p : PlaneParams} (h : p.width = 0) : s.clashingPlane p = none := by
  rw [State.clashingPlane, PlaneParams.descriptor?_undefine h]

/-- Settles O25: by the position of the scan and what is compared there. -/
theorem planeScansCompareInOrder : Obligations.PlaneScansCompareInOrder := by
  intro s op p hc
  rw [State.scanVerdict_definePlane hc]
  refine ⟨fun e en hpos he => ⟨fun hon => ?_, fun hoff => ?_⟩, fun hpos => ⟨fun hw => ?_, fun z hw hz => ?_⟩⟩
  · rw [hpos, State.planeVerdict_visit_conflict he hon]
  · rw [hpos, State.planeVerdict_visit_clear he hoff]
    exact ⟨_, rfl, fun hfree => State.planeNext_of_free hfree,
      fun f hf hocc hlow => State.planeNext_of_lowest hf hocc hlow⟩
  · rw [hpos, State.planeVerdict_ranges_clear (State.clashingPlane_undefine hw)]
  · have hd := PlaneParams.descriptor?_define hw hz
    intro clash
    have hclash (q : PlaneNo) : s.ClashesWith p (p.defined z) q ↔ clash q := by
      simp only [State.ClashesWith, Plane.clashes_iff, Plane.last, clash, PlaneParams.defined]
    refine ⟨fun hnone => ?_, fun q hq hlow => ?_⟩
    · rw [hpos, State.planeVerdict_ranges_clear]
      exact (State.clashingPlane_eq_none hd).mpr fun q => (not_congr (hclash q)).mpr (hnone q)
    · rw [hpos, State.planeVerdict_ranges_conflict]
      exact (State.clashingPlane_eq_some hd q).mpr
        ⟨(hclash q).mpr hq, fun q' hq' => (not_congr (hclash q')).mpr (hlow q' hq')⟩

/-! ## Allocation and release (R34, R35) -/

/-- The entries that are filled are those of the shorter list. -/
theorem map_fst_zip_eq_take {α β : Type} (l : List α) (m : List β) : (l.zip m).map Prod.fst = l.take m.length := by
  induction l generalizing m with
  | nil => simp
  | cons a l ih => cases m <;> simp [ih]

/-- An entry that an allocation does not take stays as it is (R34). -/
theorem State.look_allocate_of_not_mem {s : State} {i : RecordNo} {x : SlotLetter} {ds : List DestDesc} {e : EntryNo}
    (h : e ∉ s.allocated ds) : look (s.allocate i x ds).pool e = look s.pool e :=
  look_fillPool_of_not_mem i x _ e s.pool (by rwa [map_fst_zip_eq_take])

/-- An entry that an allocation takes was FREE (R34). -/
theorem State.free_of_mem_allocated {s : State} {ds : List DestDesc} {e : EntryNo} (h : e ∈ s.allocated ds) :
    look s.pool e = none := (s.mem_freeEntries e).mp (List.mem_of_mem_take h)

/-- The entry that an allocation takes at a place of the list holds the description of that place (R34). -/
theorem State.look_allocate {s : State} {i : RecordNo} {x : SlotLetter} {ds : List DestDesc} {n : Nat} {e : EntryNo}
    {d : DestDesc} (he : (s.allocated ds)[n]? = some e) (hd : ds[n]? = some d) :
    look (s.allocate i x ds).pool e = some (d.entry i x) := by
  have hnodup : s.freeEntries.Nodup := s.freeEntries_pairwise.imp fun h => ne_of_lt h
  refine look_fillPool i x s.freeEntries ds hnodup s.pool n e d ?_ hd
  rw [State.allocated, List.getElem?_take] at he
  split_ifs at he
  exact he

/-- An allocation takes as many entries as there are descriptions, where the pool has them (R38). -/
theorem State.length_allocated {s : State} {ds : List DestDesc} (h : ds.length ≤ s.poolFree) :
    (s.allocated ds).length = ds.length := by
  rw [State.allocated, List.length_take]
  exact min_eq_left h

/-- No FREE entry below one that an allocation takes is passed over (R34). -/
theorem State.mem_allocated_of_lt {s : State} {ds : List DestDesc} {e f : EntryNo} (he : e ∈ s.allocated ds)
    (hf : f < e) (hfree : look s.pool f = none) : f ∈ s.allocated ds := by
  have hmem : f ∈ s.freeEntries.take ds.length ++ s.freeEntries.drop ds.length := by
    rw [List.take_append_drop]
    exact (s.mem_freeEntries f).mpr hfree
  rcases List.mem_append.mp hmem with htake | hdrop
  · exact htake
  · have hsorted := s.freeEntries_pairwise
    rw [← List.take_append_drop ds.length s.freeEntries, List.pairwise_append] at hsorted
    exact absurd (hsorted.2.2 e he f hdrop) (lt_asymm hf)

/-- After an allocation the FREE entries are those it has not taken. -/
theorem State.freeEntries_allocate {s : State} {i : RecordNo} {x : SlotLetter} {ds : List DestDesc}
    (h : ds.length ≤ s.poolFree) : (s.allocate i x ds).freeEntries = s.freeEntries.drop ds.length := by
  have hnodup : s.freeEntries.Nodup := s.freeEntries_pairwise.imp fun h => ne_of_lt h
  have htaken (e : EntryNo) : look (s.allocate i x ds).pool e = none ↔ look s.pool e = none ∧ e ∉ s.allocated ds := by
    by_cases he : e ∈ s.allocated ds
    · obtain ⟨n, hn, hget⟩ := List.getElem_of_mem he
      have hlen := s.length_allocated h
      have hsome := State.look_allocate (i := i) (x := x) (List.getElem?_eq_some_iff.mpr ⟨hn, hget⟩)
        (List.getElem?_eq_getElem (hlen ▸ hn))
      rw [hsome]
      exact ⟨fun hnone => (by cases hnone), fun hnot => absurd he hnot.2⟩
    · rw [State.look_allocate_of_not_mem he]
      exact (and_iff_left he).symm
  have hfilter : (s.allocate i x ds).freeEntries = s.freeEntries.filter fun e => decide (e ∉ s.allocated ds) := by
    unfold State.freeEntries
    rw [List.filter_filter]
    refine List.filter_congr fun e _ => ?_
    rw [Bool.eq_iff_iff]
    simp only [Option.isNone_iff_eq_none, htaken, Bool.and_eq_true, decide_eq_true_eq, and_comm]
  rw [hfilter]
  conv_lhs => rw [← List.take_append_drop ds.length s.freeEntries]
  rw [List.filter_append]
  rw [← List.take_append_drop ds.length s.freeEntries, List.nodup_append] at hnodup
  obtain ⟨_, _, hdisjoint⟩ := hnodup
  have htake : (s.freeEntries.take ds.length).filter (fun e => decide (e ∉ s.allocated ds)) = [] :=
    List.filter_eq_nil_iff.mpr fun e he => by rw [decide_eq_true_eq, not_not]; exact he
  have hdrop : (s.freeEntries.drop ds.length).filter (fun e => decide (e ∉ s.allocated ds)) =
      s.freeEntries.drop ds.length :=
    List.filter_eq_self.mpr fun e he => decide_eq_true fun hmem => hdisjoint e hmem e he rfl
  rw [htake, hdrop, List.nil_append]

/-- Settles O26: the entries an allocation takes by the order of the FREE ones, those it returns by `look_emptyPool`. -/
theorem thePoolGivesTheLowestAndTakesBack : Obligations.ThePoolGivesTheLowestAndTakesBack := by
  refine ⟨fun s i x ds h => ⟨State.length_allocated h, s.freeEntries_pairwise.sublist (List.take_sublist _ _),
    fun e he => State.free_of_mem_allocated he, fun e he f hf hfree => State.mem_allocated_of_lt he hf hfree,
    fun n e d he hd => State.look_allocate he hd, fun e he => State.look_allocate_of_not_mem he, ?_⟩,
    fun pool es e => ⟨fun he => ?_, fun he => ?_⟩⟩
  · have hfree : (s.allocate i x ds).poolFree = s.poolFree - ds.length := by
      rw [State.poolFree, State.freeEntries_allocate h, List.length_drop, State.poolFree]
    omega
  · rw [look_emptyPool, if_pos he]
  · rw [look_emptyPool, if_neg he]

end Sys2Proof.Machine

/-! SUPPORT. The completions of CREATE, AMEND and DEFINE-PLANE (R4, R11, R12, R13, R29, R34, R95, R98, R107). -/

namespace Sys2Proof.Machine

/-- A command that names no handle posts the one that it found or made (R59). -/
theorem State.finish_found {s : State} {r : CommandRecord} (hr : r.command.namedHandle = none) (st : Status) (d : Payload)
    (h : Handle) : s.finish r st d (some h) = s.concluded (.result r.tag r.command.code st (some h) d) := by
  rw [State.finish, hr]
  rfl

/-- The completion command of a scan that ends clear, and the scan step that it is, leave the completion. -/
theorem exec_completion {s : State} {op : ScanOperation} {kind : Command → Bool} (he : s.engine = .scan op)
    (hk : kind op.request.command = true) (hv : s.scanVerdict op = .clear) :
    s.endScan kind = s.completeScan op.request ∧ exec .scanStep s = .next (s.completeScan op.request) := by
  have hend : ∀ q, s.scanVerdict op ≠ .goOn q := fun q hq => by rw [hv] at hq; cases hq
  rw [State.endScan_eq he hk hend, exec_scanStep he, State.stepScan_clear hv]
  exact ⟨rfl, rfl⟩

/-! ## CREATE (R95) -/

/-- The completion of a CREATE with a FREE record and a key (R4, R34, R95). -/
theorem State.completeCreate_some {s : State} {r : CommandRecord} {p : CreateParams} {i : RecordNo} {k : Key}
    (hi : s.lowestFree = some i) (hk : Key.ofBytes? p.link p.channel = some k) :
    s.completeCreate r p =
      { (s.allocate i .a p.used).setPlacement i (p.placement k (s.allocated p.used)) with
        keyIndex := put s.keyIndex k.place (some i) }.finish r .ok (.created (s.allocated p.used))
        (some (s.handleOf i)) := by
  simp only [State.completeCreate, hi, hk]

/-- Settles O27: the completion with the lowest FREE record and the command's key. -/
theorem createCompletionMakesTheLowestFreeRecordLive : Obligations.CreateCompletionMakesTheLowestFreeRecordLive := by
  intro s op p i k he hc hv hfree hlow hl hch slot made handle
  have hi : s.lowestFree = some i := (s.lowestFree_eq_some i).mpr ⟨hfree, hlow⟩
  have hk : Key.ofBytes? p.link p.channel = some k := Key.ofBytes?_eq_some.mpr ⟨hl, hch⟩
  obtain ⟨hcompletion, hstep⟩ := exec_completion (kind := Command.isCreate) he (by rw [hc]; rfl) hv
  refine ⟨_, congrArg Host.Outcome.next hcompletion, hstep, ?_⟩
  rw [State.completeScan, hc]
  simp only
  rw [State.completeCreate_some hi hk, State.finish_found (by rw [hc]; rfl), hc]
  rfl

/-! ## AMEND (R98) -/

/-- The EMPTY slot that an AMEND writes (R11). -/
theorem Placement.emptySlot_eq {b : Placement} {x : SlotLetter} {g : Slot} (hx : b.slot x = none)
    (hother : b.slot x.other = some g) : b.emptySlot = x := by
  unfold Placement.emptySlot
  cases x with
  | a => exact if_pos (Option.isNone_iff_eq_none.mpr hx)
  | b => exact if_neg (by have ha : b.slotA = some g := hother; simp [ha])

/-- A record with a slot in a state has one to find. -/
theorem Placement.find?_isSome {b : Placement} {x : SlotLetter} {g : Slot} (h : b.slot x = some g) :
    (b.find? g.phase).isSome = true := by
  rw [Option.isSome_iff_ne_none, ne_eq, b.find?_eq_none]
  refine List.ne_nil_of_mem (a := x) (List.mem_filter.mpr ⟨by cases x <;> decide, ?_⟩)
  simp [Placement.phase?, h]

/-- A flip of a record with a STAGED slot and an ACTIVE one makes the first ACTIVE and the other SUPERSEDED (R12). -/
theorem Placement.flip_withSlot {b : Placement} {x : SlotLetter} {g v : Slot} (hother : b.slot x.other = some g)
    (hg : g.phase = .active) (hv : v.phase = .staged) :
    (b.withSlot x (some v)).flip =
      (b.withSlot x (some { v with phase := .active })).withSlot x.other (some { g with phase := .superseded }) := by
  cases x with
  | a =>
    have hb : b.slotB = some g := hother
    simp [Placement.flip, Placement.withSlot, SlotLetter.other, hb, hg, hv, SlotPhase.flipped]
  | b =>
    have ha : b.slotA = some g := hother
    simp [Placement.flip, Placement.withSlot, SlotLetter.other, ha, hg, hv, SlotPhase.flipped]

/-- A flip request to a record with a STAGED slot is taken (R12). -/
theorem State.takeFlip_staged {s : State} {i : RecordNo} {p : Placement} (hp : s.placement? i = some p)
    (h : (p.find? .staged).isSome = true) :
    s.takeFlip i = { s.setPlacement i p.flip with commitSet := put s.commitSet i true } := by
  simp only [State.takeFlip, hp, h, if_true]

/-- The slot that an AMEND writes, before any flip (R11). -/
def AmendParams.stagedSlot (p : AmendParams) (entries : List EntryNo) : Slot :=
  { phase := .staged, width := p.width, height := p.height, entries := entries }

/-- The state in which an AMEND has written its slot, before any flip and result (R11, R34). -/
def State.staging (s : State) (i : RecordNo) (b : Placement) (x : SlotLetter) (p : AmendParams) : State :=
  (s.allocate i x p.used).setPlacement i (b.withSlot x (some (p.stagedSlot (s.allocated p.used))))

/-- The completion of an AMEND of a record in use (R11, R13, R34, R98). -/
theorem State.completeAmend_some {s : State} {r : CommandRecord} {p : AmendParams} {i : RecordNo} {b : Placement}
    (hi : p.handle.record? = some i) (hb : s.placement? i = some b) :
    s.completeAmend r p = if b.claim.isNone then
        ((s.staging i b b.emptySlot p).takeFlip i).finish r .ok (.amended b.emptySlot true (s.allocated p.used))
      else (s.staging i b b.emptySlot p).finish r .ok (.amended b.emptySlot false (s.allocated p.used)) := by
  simp only [State.completeAmend, hi, hb]
  rfl

/-- Settles O28: by whether the record is claimed. -/
theorem amendCompletionWritesTheEmptySlot : Obligations.AmendCompletionWritesTheEmptySlot := by
  intro s op p i b x g he hc hv hn hx hother hg fresh done flipped
  obtain ⟨hindex, hb, -⟩ := hn
  have hi : p.handle.record? = some i := inRange?_eq_some.mpr hindex
  obtain ⟨hcompletion, hstep⟩ := exec_completion (kind := Command.isAmend) he (by rw [hc]; rfl) hv
  have hcode : op.request.command.code = 0x02 := by rw [hc]; rfl
  have hnamed : op.request.command.namedHandle = some p.handle := by rw [hc]; rfl
  have hcomplete : s.completeScan op.request = s.completeAmend op.request p := by rw [State.completeScan, hc]
  refine ⟨_, congrArg Host.Outcome.next hcompletion, hstep, fun hclaimed => ?_, fun hfree => ?_⟩
  · have hsome : ¬ b.claim.isNone = true := by rwa [Option.isNone_iff_eq_none]
    rw [hcomplete, State.completeAmend_some hi hb, if_neg hsome, Placement.emptySlot_eq hx hother,
      State.finish_eq_concluded, hnamed, hcode]
    rfl
  · have hnone : b.claim.isNone = true := Option.isNone_iff_eq_none.mpr hfree
    have hstaged : ((b.withSlot x (some (p.stagedSlot (s.allocated p.used)))).find? .staged).isSome = true :=
      Placement.find?_isSome (Placement.slot_withSlot_same b x _)
    have hplaced : (s.staging i b x p).placement? i = some _ := State.placement?_setPlacement_same _ i _
    rw [hcomplete, State.completeAmend_some hi hb, if_pos hnone, Placement.emptySlot_eq hx hother,
      State.takeFlip_staged hplaced hstaged, State.finish_eq_concluded, hnamed, hcode,
      Placement.flip_withSlot hother hg rfl]
    simp only [State.staging, State.setPlacement, State.allocate, put_put_same, look_put_same]
    rfl

/-! ## DEFINE-PLANE (R29, R107) -/

/-- Settles O29: by whether the command defines the plane. -/
theorem definePlaneCompletionWritesThePlane : Obligations.DefinePlaneCompletionWritesThePlane := by
  intro s op p q he hc hv hq done
  have hplane : inRange? 4 p.plane = some q := inRange?_eq_some.mpr hq
  obtain ⟨hcompletion, hstep⟩ := exec_completion (kind := Command.isDefinePlane) he (by rw [hc]; rfl) hv
  have hcode : op.request.command.code = 0x07 := by rw [hc]; rfl
  have hnamed : op.request.command.namedHandle = none := by rw [hc]; rfl
  have hcomplete : s.completeScan op.request = { s with planes := put s.planes q p.descriptor? }.finish op.request .ok
      (.planeDefined p.plane p.descriptor?.isSome) := by
    rw [State.completeScan, hc]
    simp only [State.completeDefinePlane, hplane]
  refine ⟨_, congrArg Host.Outcome.next hcompletion, hstep, fun hw => ?_, fun z hw hz => ?_⟩
  · rw [hcomplete, State.finish_eq_concluded, hnamed, hcode, PlaneParams.descriptor?_undefine hw]
    rfl
  · rw [hcomplete, State.finish_eq_concluded, hnamed, hcode, PlaneParams.descriptor?_define hw hz]
    rfl

end Sys2Proof.Machine

/-! SUPPORT. The host commands with no phase, and SYNC (R24, R52, R68, R100, R102, R104, R105, R108, R109, R111, R112,
R114, R116). -/

namespace Sys2Proof.Machine

/-! ## SET-ATTRIBUTES and RETIRE -/

@[simp] theorem State.begun_bursts (s : State) (x : Source) (q : Request) : (s.begun x q).bursts = s.bursts := by
  rw [State.begun_frame]

@[simp] theorem State.begun_fsRefused (s : State) (x : Source) (q : Request) :
    (s.begun x q).fsRefused = s.fsRefused := by rw [State.begun_frame]

@[simp] theorem State.begun_fsTimeout (s : State) (x : Source) (q : Request) :
    (s.begun x q).fsTimeout = s.fsTimeout := by rw [State.begun_frame]

@[simp] theorem State.begun_aborts (s : State) (x : Source) (q : Request) : (s.begun x q).aborts = s.aborts := by
  rw [State.begun_frame]

section
variable {s : State} {x : Source} {r : CommandRecord} (hs : s.Starts x (.command r))
include hs

/-- What a host command that completes in its start event leaves is a completion of its start (R46, R53). -/
theorem State.Starts.answered_eq (st : Status) (h : Option Handle) (d : Payload) :
    s.answered x r st h d = (s.begun x (.command r)).concluded (.result r.tag r.command.code st h d) := by
  unfold State.answered State.concluded
  rw [State.begun_frame]
  simp [hs.1]

/-- The start of a host command leaves the Release set (R77). -/
theorem State.Starts.begun_releaseSet : (s.begun x (.command r)).releaseSet = s.releaseSet := by
  rcases State.source_of_offer_command hs.offered with rfl | rfl
  · rfl
  · unfold State.begun
    cases s.backup <;> rfl

theorem exec_setAttributes_live {p : AttributeParams} (hr : r.command = .setAttributes p) {i : RecordNo}
    {b : Placement} (hn : s.Names p.handle i b) (hd : b.drain = none) :
    exec .setAttributes s =
      .next (((s.begun x (.command r)).setPlacement i (b.withAttributes p)).finish r .ok .empty) := by
  refine (hs.run (a := p) (by rw [hr]; rfl) _).trans (congrArg Host.Outcome.next ?_)
  simp only [State.begun_checkLive, State.checkLive_live hn hd]

theorem exec_retire_live {h : Handle} {abort : Bool} (hr : r.command = .retire h abort) {i : RecordNo} {b : Placement}
    (hn : s.Names h i b) (hd : b.drain = none) :
    exec .retire s = .next (((s.begun x (.command r)).drain i b .retire abort).finish r .ok
      (.retired b.claim (b.claim.isSome && abort))) := by
  refine (hs.run (a := (h, abort)) (by rw [hr]; rfl) _).trans (congrArg Host.Outcome.next ?_)
  simp only [State.begun_checkLive, State.checkLive_live hn hd]

end

/-- Settles O30. -/
theorem setAttributesWritesAllFour : Obligations.SetAttributesWritesAllFour := by
  intro s x r p i b hs hr hn hd interval
  rw [exec_setAttributes_live hs hr hn hd, State.finish_eq_concluded, hr, hs.answered_eq, hr]
  simp only [State.setPlacement, State.begun_records]
  rfl

/-- Settles O31: by whether the record is claimed, and then by the abort option. -/
theorem retireDrainsTheRecord : Obligations.RetireDrainsTheRecord := by
  intro s x r h abort i b hs hr hn hd drained
  rw [exec_retire_live hs hr hn hd, State.finish_eq_concluded]
  simp only [drained, hs.answered_eq, hr]
  refine ⟨fun hfree => ?_, fun c hc hno => ?_, fun c hc habort => ?_⟩
  · simp only [State.drain, hfree, State.setPlacement, State.begun_records, State.begun_keyIndex, hs.begun_releaseSet]
    rfl
  · simp only [State.drain, hc, hno, State.setPlacement, State.begun_records, State.begun_keyIndex]
    rfl
  · simp only [State.drain, hc, habort, State.setPlacement, State.begun_records, State.begun_keyIndex, State.begun_aborts]
    rfl

/-! ## LOOKUP and QUERY -/

@[simp] theorem State.begun_placement? (s : State) (x : Source) (q : Request) (i : RecordNo) :
    (s.begun x q).placement? i = s.placement? i := State.placement?_congr (State.begun_records s x q) i

@[simp] theorem State.begun_handleOf (s : State) (x : Source) (q : Request) (i : RecordNo) :
    (s.begun x q).handleOf i = s.handleOf i := by rw [State.handleOf, State.begun_records]; rfl

@[simp] theorem State.begun_snapshot (s : State) (x : Source) (q : Request) (i : RecordNo) :
    (s.begun x q).snapshot i = s.snapshot i := by rw [State.begun_frame]; rfl

section
variable {s : State} {x : Source} {r : CommandRecord} (hs : s.Starts x (.command r))
include hs

/-- A LOOKUP of a key that is out of range (R104). -/
theorem exec_lookup_badKey {lb cb : Byte} (hr : r.command = .lookup lb cb) (h : Key.ofBytes? lb cb = none) :
    exec .lookup s = .next (s.answered x r .badKey none .empty) := by
  refine (hs.run (a := (lb, cb)) (by rw [hr]; rfl) _).trans (congrArg Host.Outcome.next ?_)
  simp only [h]
  rw [hs.finish, hr]
  rfl

/-- A LOOKUP of a key reads its Key Index entry (R24, R104). -/
theorem exec_lookup_key {lb cb : Byte} (hr : r.command = .lookup lb cb) {k : Key} (h : Key.ofBytes? lb cb = some k) :
    exec .lookup s = .next (match (look s.keyIndex k.place).bind fun i => (s.placement? i).map fun b => (i, b) with
      | none => s.answered x r .noSuchKey none .empty
      | some (i, b) => s.answered x r .ok (some (s.handleOf i)) (.found b.activity b.hold)) := by
  refine (hs.run (a := (lb, cb)) (by rw [hr]; rfl) _).trans (congrArg Host.Outcome.next ?_)
  simp only [h, State.begun_keyIndex, State.begun_placement?, State.begun_handleOf]
  cases (look s.keyIndex k.place).bind fun i => (s.placement? i).map fun b => (i, b) with
  | none => simp only; rw [hs.finish, hr]; rfl
  | some ib => simp only; rw [hs.finish, hr]; rfl

theorem exec_query_badParameter {b : Byte} (hr : r.command = .query b) (h : inRange? 64 b = none) :
    exec .query s = .next (s.answered x r .badParameter none .empty) := by
  refine (hs.run (a := b) (by rw [hr]; rfl) _).trans (congrArg Host.Outcome.next ?_)
  simp only [h]
  rw [hs.finish, hr]
  rfl

theorem exec_query_record {b : Byte} (hr : r.command = .query b) {i : RecordNo} (h : inRange? 64 b = some i) :
    exec .query s = .next (s.answered x r .ok none (s.snapshot i)) := by
  refine (hs.run (a := b) (by rw [hr]; rfl) _).trans (congrArg Host.Outcome.next ?_)
  simp only [h, State.begun_snapshot]
  rw [hs.finish, hr]
  rfl

end

/-- A FREE record has no entries to report, an EMPTY slot none, and another those on its list (R105). -/
theorem State.slotEntries_snapshot (s : State) (i : RecordNo) (slot : Placement → Option Slot) :
    (s.placement? i = none → s.slotEntries ((s.placement? i).bind slot) = []) ∧
      ∀ p, s.placement? i = some p →
        (slot p = none → s.slotEntries ((s.placement? i).bind slot) = []) ∧
        ∀ g, slot p = some g → s.slotEntries ((s.placement? i).bind slot) =
          g.entries.filterMap fun e => (look s.pool e).map fun en => (e, en) := by
  refine ⟨fun h => by rw [h]; rfl, fun p h => ⟨fun hempty => ?_, fun g hg => ?_⟩⟩
  · rw [h, Option.bind_some, hempty]; rfl
  · rw [h, Option.bind_some, hg]; rfl

/-- Settles O32: LOOKUP by what its key's entry holds, QUERY by its index. -/
theorem lookupAndQueryReadTheTables : Obligations.LookupAndQueryReadTheTables := by
  refine ⟨fun s x r lb cb hs hr => ⟨fun hbad => ?_, fun k hl hc => ?_⟩, fun s x r b hs hr => ⟨fun hbad => ?_,
    fun i hi => ⟨_, _, exec_query_record hs hr (inRange?_eq_some.mpr hi), ?_, fun p hp => ?_⟩⟩⟩
  · exact exec_lookup_badKey hs hr (Key.ofBytes?_eq_none.mpr hbad)
  · rw [exec_lookup_key hs hr (Key.ofBytes?_eq_some.mpr ⟨hl, hc⟩)]
    refine ⟨fun hempty => ?_, fun i p hentry hp => ?_⟩
    · rw [hempty]; rfl
    · rw [hentry, Option.bind_some, hp]; rfl
  · exact exec_query_badParameter hs hr (inRange?_eq_none.mpr hbad)
  · exact fun hfree => ⟨(s.slotEntries_snapshot i _).1 hfree, (s.slotEntries_snapshot i _).1 hfree⟩
  · obtain ⟨hemptyA, hlistA⟩ := (s.slotEntries_snapshot i fun p => p.slotA).2 p hp
    obtain ⟨hemptyB, hlistB⟩ := (s.slotEntries_snapshot i fun p => p.slotB).2 p hp
    exact ⟨hemptyA, hemptyB, hlistA, hlistB⟩

/-! ## CONFIGURE-FRAMESTORE and SET-LEVELS -/

/-- Settles O35: the timeout by whether it is 0, the levels by the first that is above 7. -/
theorem timeoutAndLevelsAreWrittenWhole : Obligations.TimeoutAndLevelsAreWrittenWhole := by
  refine ⟨fun s x r n hs hr => ?_, fun s x r ls hs hr => ?_⟩
  · have hrun := hs.run (pick := Command.configureFramestore?) (a := n) (by rw [hr]; rfl)
    refine ⟨fun hzero => (hrun _).trans (congrArg Host.Outcome.next ?_),
      fun hne => (hrun _).trans (congrArg Host.Outcome.next ?_)⟩
    · rw [if_pos hzero, hs.finish, hr]
      rfl
    · rw [if_neg hne, State.finish_eq_concluded, hs.answered_eq, hr]
      rfl
  · have hrun := hs.run (pick := Command.setLevels?) (a := ls) (by rw [hr]; rfl)
    refine ⟨fun n hbad hlow => (hrun _).trans (congrArg Host.Outcome.next ?_),
      fun vs hvs => (hrun _).trans (congrArg Host.Outcome.next ?_)⟩
    · have hfirst : firstBadLevel ls = some n :=
        find?_finRange_eq_some.mpr ⟨decide_eq_true hbad, fun m hm => decide_eq_false (Nat.not_lt.mpr (hlow m hm))⟩
      simp only [hfirst]
      rw [hs.finish, hr]
      rfl
    · have hnone : firstBadLevel ls = none := find?_finRange_eq_none.mpr fun n =>
        decide_eq_false (Nat.not_lt.mpr (by have := (look vs n).isLt; have := hvs n; omega))
      have hlevels : ls.map levelOf = vs := look_ext fun n => by
        rw [look_map, Fin.ext_iff, hvs]
        exact Nat.mod_eq_of_lt (by have := (look vs n).isLt; have := hvs n; omega)
      simp only [hnone, hlevels]
      rw [State.finish_eq_concluded, hs.answered_eq, hr]
      rfl

/-! ## READ-COUNTERS (R113, R114) -/

section
variable {s : State} {x : Source} {r : CommandRecord} (hs : s.Starts x (.command r))
include hs

theorem exec_readCounters_link {p : CounterParams} (hr : r.command = .readCounters p) (hk : p.kind = 1) :
    exec .readCounters s = .next ((s.begun x (.command r)).readLinkCounters r p) := by
  refine (hs.run (a := p) (by rw [hr]; rfl) _).trans (congrArg Host.Outcome.next ?_)
  rw [hk]
  rfl

theorem exec_readCounters_port {p : CounterParams} (hr : r.command = .readCounters p) (hk : p.kind = 2) :
    exec .readCounters s = .next ((s.begun x (.command r)).readPortCounters r p) := by
  refine (hs.run (a := p) (by rw [hr]; rfl) _).trans (congrArg Host.Outcome.next ?_)
  rw [hk]
  rfl

theorem exec_readCounters_badKind {p : CounterParams} (hr : r.command = .readCounters p) (hk : 2 < p.kind.toNat) :
    exec .readCounters s = .next (s.answered x r .badParameter none .empty) := by
  have hne (n : Byte) (hn : n.toNat ≤ 2) : p.kind ≠ n := fun h => by rw [h] at hk; omega
  have hnamed : r.command.namedHandle = none := by rw [hr]; exact if_neg (hne 0 (by decide))
  refine (hs.run (a := p) (by rw [hr]; rfl) _).trans (congrArg Host.Outcome.next ?_)
  rw [if_neg (hne 0 (by decide)), if_neg (hne 1 (by decide)), if_neg (hne 2 (by decide)), hs.finish, hnamed]
  rfl

end

/-- The counters of a record that the handle names, LIVE or DRAINING (R114). -/
theorem State.readRecordCounters_names {s : State} {r : CommandRecord} {p : CounterParams} {i : RecordNo} {b : Placement}
    (h : s.checkHandle p.handle = if b.drain.isSome then .draining i b else .live i b) :
    s.readRecordCounters r p =
      (if p.clear then s.setPlacement i { b with counters := RecordCounters.zero } else s).finish r .ok
        (.recordCounters p.clear b.counters) := by
  unfold State.readRecordCounters
  rw [h]
  by_cases hd : b.drain.isSome = true
  · rw [if_pos hd]
  · rw [if_neg hd]

/-- The counters of a link (R114). -/
theorem State.readLinkCounters_link {s : State} {r : CommandRecord} {p : CounterParams} {l : LinkNo}
    (h : inRange? 6 p.target0 = some l) :
    s.readLinkCounters r p =
      (if p.clear then s.setLink l { look s.links l with counters := Vector.replicate 8 0 } else s).finish r .ok
        (.linkCounters p.clear (look s.links l).counters) := by
  simp only [State.readLinkCounters, h]

/-- Only the READ-COUNTERS of a record names a handle (R59). -/
theorem namedHandle_readCounters {c : Command} {p : CounterParams} (hc : c = .readCounters p) (hk : p.kind ≠ 0) :
    c.namedHandle = none := by rw [hc]; exact if_neg hk

/-- Settles O36: by the kind of counters, and then by the clear option. -/
theorem readCountersReportsAndClears : Obligations.ReadCountersReportsAndClears := by
  intro s x r p hs hr
  have hcode : r.command.code = 0x0B := by rw [hr]; rfl
  refine ⟨fun hbad => ?_, fun i b hk hn => ?_, fun l hk hl => ?_, fun hk => ?_⟩
  · rcases hbad with hkind | ⟨hk, hlink⟩
    · exact exec_readCounters_badKind hs hr hkind
    · have hnone : inRange? 6 p.target0 = none := inRange?_eq_none.mpr hlink
      rw [exec_readCounters_link hs hr hk]
      simp only [State.readLinkCounters, hnone]
      rw [hs.finish, namedHandle_readCounters hr (by rw [hk]; decide)]
      rfl
  · have hnamed : r.command.namedHandle = some p.handle := by rw [hr]; exact if_pos hk
    rw [exec_readCounters_record hs hr hk, State.readRecordCounters_names ((State.begun_checkHandle s x _ _).trans (State.checkHandle_names hn)), hs.answered_eq]
    refine ⟨fun hkeep => ?_, fun hclear => ?_⟩
    · rw [if_neg (by simp [hkeep]), State.finish_eq_concluded, hnamed]
    · rw [if_pos hclear, State.finish_eq_concluded, hnamed]
      simp only [State.setPlacement, State.begun_records]
      rfl
  · have hnamed : r.command.namedHandle = none := namedHandle_readCounters hr (by rw [hk]; decide)
    rw [exec_readCounters_link hs hr hk, State.readLinkCounters_link (inRange?_eq_some.mpr hl), hs.answered_eq]
    refine ⟨fun hkeep => ?_, fun hclear => ?_⟩
    · rw [if_neg (by simp [hkeep]), State.finish_eq_concluded, hnamed, State.begun_links]
    · rw [if_pos hclear, State.finish_eq_concluded, hnamed]
      simp only [State.setLink, State.begun_links]
      rfl
  · have hnamed : r.command.namedHandle = none := namedHandle_readCounters hr (by rw [hk]; decide)
    rw [exec_readCounters_port hs hr hk, State.readPortCounters, State.begun_fsRefused, State.begun_fsTimeout,
      hs.answered_eq]
    refine ⟨fun hkeep => ?_, fun hclear => ?_⟩
    · rw [if_neg (by simp [hkeep]), State.finish_eq_concluded, hnamed]
    · rw [if_pos hclear, State.finish_eq_concluded, hnamed]
      rfl

/-! ## SYNC (R52, R116) -/

/-- A SYNC fences on every burst queued at its start (R52). -/
theorem exec_sync_starts {s : State} {x : Source} {r : CommandRecord} (hs : s.Starts x (.command r))
    (hr : r.command = .sync) :
    exec .sync s = .next ((s.begun x (.command r)).startFence
      { source := x, request := .sync r, awaited := List.replicate s.bursts.length true, target := [] }) := by
  refine (hs.run (a := ()) (by rw [hr]; rfl) _).trans (congrArg Host.Outcome.next ?_)
  rw [State.begun_bursts, List.map_const']

/-- Settles O37: the fence set is every queued burst, so that it is empty exactly when the queue is. -/
theorem syncFencesOnEveryQueuedBurst : Obligations.SyncFencesOnEveryQueuedBurst := by
  intro s x r hs hr
  have hrun := exec_sync_starts hs hr
  refine ⟨fun hempty => ?_, fun hsome => ?_⟩
  · rw [hrun, hempty]
    refine congrArg Host.Outcome.next ((hs.finish _ _ _).trans ?_)
    rw [hr]
    rfl
  · have hawait : awaiting (List.replicate s.bursts.length true) = true := by
      obtain ⟨b, rest, hb⟩ := List.exists_cons_of_ne_nil hsome
      rw [hb]
      rfl
    rw [hrun]
    exact congrArg Host.Outcome.next (if_pos hawait)

end Sys2Proof.Machine

/-! SUPPORT. How a frame ends: the unclaim of its record, a truncation, and the truncation of every frame of a link (R16 to
R18, R21, R128, R132). -/

namespace Sys2Proof.Machine

/-! ## The unclaim (R17) -/

/-- An unclaim of a record in use counts, clears the claim, sets the Release bit of a DRAINING record and discards the
abort requests for it (R17, R21, R74; log 9). -/
theorem State.unclaim_some {s : State} {i : RecordNo} {p : Placement} (hp : s.placement? i = some p) (n : RecordCounter) :
    s.unclaim i n = { s.setPlacement i { p.count n with claim := none } with
      aborts := s.aborts.filter fun a => decide (a.record ≠ i)
      releaseSet := if p.drain.isSome then put s.releaseSet i true else s.releaseSet } := by
  unfold State.unclaim
  rw [hp]
  by_cases hd : p.drain.isSome = true
  · simp only [hd, if_true]
  · simp only [hd, if_false, Bool.false_eq_true]
    rfl

/-- An unclaim of a FREE record does nothing. -/
theorem State.unclaim_none {s : State} {i : RecordNo} (hp : s.placement? i = none) (n : RecordCounter) :
    s.unclaim i n = s := by
  unfold State.unclaim
  rw [hp]

/-! ## The end of a frame (R128, R132) -/

/-- A frame claims the record of its phase (R127). -/
theorem Frame.claims_iff {f : Frame} {i : RecordNo} : f.claims i = true ↔ f.phase.record? = some i := decide_eq_true_iff

/-- The frame of a context ends: a claimed record is unclaimed with a counter, and the context is IDLE. -/
def State.endFrame (s : State) (l : LinkNo) (c : Channel) (f : Frame) (n : RecordCounter) : State :=
  (match f.phase.record? with
    | some r => s.unclaim r n
    | none => s).setContext l c none

/-- The end of a frame that claims no record. -/
theorem State.endFrame_unclaimed {s : State} {f : Frame} (h : f.phase.record? = none) (l : LinkNo) (c : Channel)
    (n : RecordCounter) : s.endFrame l c f n = s.setContext l c none := by
  rw [State.endFrame, h]

/-- The end of a frame that claims a record. -/
theorem State.endFrame_claimed {s : State} {f : Frame} {i : RecordNo} (h : f.phase.record? = some i) (l : LinkNo)
    (c : Channel) (n : RecordCounter) : s.endFrame l c f n = (s.unclaim i n).setContext l c none := by
  rw [State.endFrame, h]

/-- A truncation of an IDLE context changes nothing (R128). -/
theorem State.truncate_idle {s : State} {l : LinkNo} {c : Channel} (h : s.context? l c = none) : s.truncate l c = s := by
  rw [State.truncate, h]

/-- A truncation of an open frame counts TRUNCATED and ends the frame as damaged (R128). -/
theorem State.truncate_open {s : State} {l : LinkNo} {c : Channel} {f : Frame} (h : s.context? l c = some f) :
    s.truncate l c = (s.countLink l .truncated).endFrame l c f .damaged := by
  rw [State.truncate, h]
  rfl

/-- Settles O46: by whether a frame is open, and then by whether it claims a record. -/
theorem aTruncationEndsTheFrame : Obligations.ATruncationEndsTheFrame := by
  intro s l c k n idle
  refine ⟨State.truncate_idle, fun f hf => ⟨fun hnone => ?_, fun i p hi hp => ?_⟩⟩
  · rw [State.truncate_open hf, State.endFrame_unclaimed hnone]
    simp only [State.setContext, State.countLink, State.setLink, put_put_same, look_put_same]
    rfl
  · have hp' : (s.countLink l .truncated).placement? i = some p := hp
    rw [State.truncate_open hf, State.endFrame_claimed hi, State.unclaim_some hp']
    simp only [State.setContext, State.countLink, State.setLink, State.setPlacement, put_put_same, look_put_same]
    rfl

/-! ## What the end of a frame leaves -/

/-- A context of a link holds a frame that claims a record. -/
def State.ClaimedAt (s : State) (l : LinkNo) (c : Channel) (i : RecordNo) : Prop :=
  ∃ f, s.context? l c = some f ∧ f.claims i = true

theorem State.links_endFrame (s : State) (l : LinkNo) (c : Channel) (f : Frame) (n : RecordCounter) :
    (s.endFrame l c f n).links = put s.links l ((look s.links l).withContext c none) := by
  unfold State.endFrame
  split
  · rw [State.setContext_links, State.links_unclaim]
  · rfl

/-- The end of a frame leaves every other context (R128, R132). -/
theorem State.context?_endFrame (s : State) (l m : LinkNo) (c d : Channel) (f : Frame) (n : RecordCounter) :
    (s.endFrame l c f n).context? m d = if l = m ∧ c = d then none else s.context? m d := by
  rw [← State.context?_setContext]
  exact State.context?_congr (s.links_endFrame l c f n) m d

section
variable {s : State} {f : Frame} {i : RecordNo} {p : Placement} (hf : f.claims i = true) (hp : s.placement? i = some p)
  (l : LinkNo) (c : Channel) (n : RecordCounter)
include hf hp

/-- The record that the frame claims is counted and unclaimed, with its generation kept (R8, R17, R21). -/
theorem State.look_records_endFrame_claimed :
    look (s.endFrame l c f n).records i = { look s.records i with placement := some { p.count n with claim := none } } := by
  rw [State.endFrame_claimed (Frame.claims_iff.mp hf), State.unclaim_some hp]
  exact look_put_same _ _ _

/-- Its Release bit is set if it is DRAINING (R17, R74). -/
theorem State.look_releaseSet_endFrame_claimed :
    look (s.endFrame l c f n).releaseSet i = (look s.releaseSet i || p.drain.isSome) := by
  rw [State.endFrame_claimed (Frame.claims_iff.mp hf), State.unclaim_some hp]
  change look (if p.drain.isSome = true then put s.releaseSet i true else s.releaseSet) i = _
  split_ifs with hd <;> simp [hd]

/-- No abort request travels on to it (R18; log 9). -/
theorem State.aborts_endFrame_claimed :
    (s.endFrame l c f n).aborts = s.aborts.filter fun a => decide (a.record ≠ i) := by
  rw [State.endFrame_claimed (Frame.claims_iff.mp hf), State.unclaim_some hp]
  rfl

end

section
variable {s : State} {f : Frame} {i : RecordNo} (hf : f.claims i ≠ true) (l : LinkNo) (c : Channel) (n : RecordCounter)
include hf

/-- A record that the frame does not claim is left, with its Release bit. -/
theorem State.look_endFrame_other :
    look (s.endFrame l c f n).records i = look s.records i ∧
      look (s.endFrame l c f n).releaseSet i = look s.releaseSet i := by
  cases hr : f.phase.record? with
  | none => rw [State.endFrame_unclaimed hr]; exact ⟨rfl, rfl⟩
  | some r =>
    have hne : r ≠ i := fun h => hf (Frame.claims_iff.mpr (h ▸ hr))
    rw [State.endFrame_claimed hr]
    cases hp : s.placement? r with
    | none => rw [State.unclaim_none hp]; exact ⟨rfl, rfl⟩
    | some p =>
      rw [State.unclaim_some hp]
      refine ⟨look_put_ne _ _ hne, ?_⟩
      change look (if p.drain.isSome = true then put s.releaseSet r true else s.releaseSet) i = _
      split_ifs
      · exact look_put_ne _ _ hne
      · rfl

theorem State.placement?_endFrame_other : (s.endFrame l c f n).placement? i = s.placement? i :=
  congrArg Record.placement (State.look_endFrame_other hf l c n).1

end

theorem State.placement?_endFrame_claimed {s : State} {f : Frame} {i : RecordNo} {p : Placement}
    (hf : f.claims i = true) (hp : s.placement? i = some p) (l : LinkNo) (c : Channel) (n : RecordCounter) :
    (s.endFrame l c f n).placement? i = some { p.count n with claim := none } :=
  congrArg Record.placement (State.look_records_endFrame_claimed hf hp l c n)

/-- Under R16 a record is claimed by one context only. -/
theorem State.ClaimsAgree.claimedAt_unique {s : State} (h : s.ClaimsAgree) {l m : LinkNo} {c d : Channel} {i : RecordNo}
    (hc : s.ClaimedAt l c i) (hd : s.ClaimedAt m d i) : l = m ∧ c = d := by
  obtain ⟨f, hf, hfi⟩ := hc
  obtain ⟨g, hg, hgi⟩ := hd
  obtain ⟨p, hp, hclaim⟩ := h.2 l c f i hf hfi
  obtain ⟨q, hq, hclaim'⟩ := h.2 m d g i hg hgi
  rw [hp] at hq
  cases hq
  rw [hclaim] at hclaim'
  simpa using hclaim'

/-- The end of a frame keeps the claims and the claiming frames each other's inverse (R16, R17). -/
theorem State.ClaimsAgree.endFrame {s : State} (h : s.ClaimsAgree) {l : LinkNo} {c : Channel} {f : Frame}
    (hf : s.context? l c = some f) (n : RecordCounter) : (s.endFrame l c f n).ClaimsAgree := by
  refine ⟨fun i p d hp hd => ?_, fun m d g i hg hgi => ?_⟩
  · by_cases hfi : f.claims i = true
    · obtain ⟨q, hq, -⟩ := h.2 l c f i hf hfi
      rw [State.placement?_endFrame_claimed hfi hq] at hp
      cases hp
      cases hd
    · rw [State.placement?_endFrame_other hfi] at hp
      obtain ⟨hkey, g, hg, hgi⟩ := h.1 i p d hp hd
      refine ⟨hkey, g, ?_, hgi⟩
      rw [State.context?_endFrame, if_neg]
      · exact hg
      · rintro ⟨rfl, rfl⟩
        rw [hf] at hg
        cases hg
        exact hfi hgi
  · rw [State.context?_endFrame] at hg
    split_ifs at hg with heq
    obtain ⟨p, hp, hclaim⟩ := h.2 m d g i hg hgi
    refine ⟨p, ?_, hclaim⟩
    rw [State.placement?_endFrame_other]
    · exact hp
    · exact fun hfi => heq (h.claimedAt_unique ⟨f, hf, hfi⟩ ⟨g, hg, hgi⟩)

end Sys2Proof.Machine

/-! SUPPORT. A truncation, and the truncation of every frame of a link, told by what they leave in the tables (R16 to R18,
R21, R123, R128, R136). -/

namespace Sys2Proof.Machine

/-! ## One truncation (R128) -/

/-- Claims and claiming frames are read off the records and the contexts. -/
theorem State.ClaimsAgree.congr {s t : State} (h : s.ClaimsAgree) (hp : ∀ i, t.placement? i = s.placement? i)
    (hc : ∀ l c, t.context? l c = s.context? l c) : t.ClaimsAgree := by
  unfold State.ClaimsAgree at h ⊢
  simpa only [hp, hc] using h

theorem State.ClaimsAgree.countLink {s : State} (h : s.ClaimsAgree) (l : LinkNo) (n : LinkCounter) :
    (s.countLink l n).ClaimsAgree := h.congr (fun _ => rfl) fun m c => s.context?_countLink l m n c

theorem State.ClaimsAgree.truncate {s : State} (h : s.ClaimsAgree) (l : LinkNo) (c : Channel) :
    (s.truncate l c).ClaimsAgree := by
  cases hf : s.context? l c with
  | none => rwa [State.truncate_idle hf]
  | some f =>
    rw [State.truncate_open hf]
    exact (h.countLink l .truncated).endFrame ((s.context?_countLink l l _ c).trans hf) .damaged

/-- After a truncation the context is IDLE, and every other one is as it was. -/
theorem State.context?_truncate (s : State) (l m : LinkNo) (c d : Channel) :
    (s.truncate l c).context? m d = if l = m ∧ c = d then none else s.context? m d := by
  cases hf : s.context? l c with
  | none =>
    rw [State.truncate_idle hf]
    split_ifs with h
    · obtain ⟨rfl, rfl⟩ := h; exact hf
    · rfl
  | some f => rw [State.truncate_open hf, State.context?_endFrame, State.context?_countLink]

/-- A truncation writes the contexts and the counters of its link. -/
theorem State.links_truncate (s : State) (l : LinkNo) (c : Channel) :
    (s.truncate l c).links = put s.links l (if (s.context? l c).isSome then
      ((look s.links l).count .truncated).withContext c none else look s.links l) := by
  cases hf : s.context? l c with
  | none => rw [State.truncate_idle hf]; exact (put_look_same _ _).symm
  | some f =>
    rw [State.truncate_open hf, State.links_endFrame, State.countLink_links, look_put_same, put_put_same]
    rfl

section
variable {s : State} {l : LinkNo} {c : Channel} {i : RecordNo}

/-- A truncation of the frame that claims a record counts it as damaged and unclaims it (R17, R21). -/
theorem State.truncate_claimed {p : Placement} (hc : s.ClaimedAt l c i) (hp : s.placement? i = some p) :
    look (s.truncate l c).records i = { look s.records i with placement := some { p.count .damaged with claim := none } } ∧
      look (s.truncate l c).releaseSet i = (look s.releaseSet i || p.drain.isSome) := by
  obtain ⟨f, hf, hfi⟩ := hc
  have hp' : (s.countLink l .truncated).placement? i = some p := hp
  rw [State.truncate_open hf]
  exact ⟨State.look_records_endFrame_claimed hfi hp' l c .damaged,
    State.look_releaseSet_endFrame_claimed hfi hp' l c .damaged⟩

/-- A truncation leaves every record that its frame does not claim. -/
theorem State.truncate_other (hc : ¬ s.ClaimedAt l c i) :
    look (s.truncate l c).records i = look s.records i ∧ look (s.truncate l c).releaseSet i = look s.releaseSet i := by
  cases hf : s.context? l c with
  | none => rw [State.truncate_idle hf]; exact ⟨rfl, rfl⟩
  | some f =>
    rw [State.truncate_open hf]
    exact State.look_endFrame_other (s := s.countLink l .truncated) (fun hfi => hc ⟨f, hf, hfi⟩) l c .damaged

/-- After a truncation no abort request travels to the claim that it ended (R18; log 9). -/
theorem State.ClaimsAgree.mem_aborts_truncate (h : s.ClaimsAgree) (a : Abort) :
    a ∈ (s.truncate l c).aborts ↔ a ∈ s.aborts ∧ ¬ s.ClaimedAt l c a.record := by
  cases hf : s.context? l c with
  | none =>
    have hnot : ¬ s.ClaimedAt l c a.record := fun ⟨f, hf', _⟩ => by rw [hf] at hf'; cases hf'
    rw [State.truncate_idle hf]
    exact (and_iff_left hnot).symm
  | some f =>
    have hclaimed (r : RecordNo) : s.ClaimedAt l c r ↔ f.claims r = true :=
      ⟨fun ⟨g, hg, hgr⟩ => by rw [hf] at hg; cases hg; exact hgr, fun hr => ⟨f, hf, hr⟩⟩
    rw [State.truncate_open hf, hclaimed]
    cases hr : f.phase.record? with
    | none =>
      have hnot : ¬ f.claims a.record = true := by rw [Frame.claims_iff, hr]; simp
      rw [State.endFrame_unclaimed hr]
      exact (and_iff_left hnot).symm
    | some r =>
      have hfr : f.claims r = true := Frame.claims_iff.mpr hr
      obtain ⟨p, hp, -⟩ := h.2 l c f r hf hfr
      have hp' : (s.countLink l .truncated).placement? r = some p := hp
      rw [State.aborts_endFrame_claimed hfr hp' l c .damaged, List.mem_filter, decide_eq_true_eq, Frame.claims_iff, hr,
        Option.some_inj]
      exact and_congr_right fun _ => ⟨fun hne he => hne he.symm, fun hne he => hne he.symm⟩

/-- A context other than the truncated one claims what it claimed. -/
theorem State.claimedAt_truncate {m : LinkNo} {d : Channel} :
    (s.truncate l c).ClaimedAt m d i ↔ ¬ (l = m ∧ c = d) ∧ s.ClaimedAt m d i := by
  unfold State.ClaimedAt
  rw [State.context?_truncate]
  split_ifs with h <;> simp [h]

end

/-! ## The truncation of some contexts of a link, one after another -/

/-- The contexts of a list are truncated one after another. -/
def State.truncateEach (s : State) (l : LinkNo) (cs : List Channel) : State := cs.foldl (fun s c => s.truncate l c) s

theorem State.truncateEach_cons (s : State) (l : LinkNo) (c : Channel) (cs : List Channel) :
    s.truncateEach l (c :: cs) = (s.truncate l c).truncateEach l cs := rfl

theorem State.ClaimsAgree.truncateEach {s : State} (h : s.ClaimsAgree) (l : LinkNo) (cs : List Channel) :
    (s.truncateEach l cs).ClaimsAgree := by
  induction cs generalizing s with
  | nil => exact h
  | cons c cs ih => exact ih (h.truncate l c)

theorem State.context?_truncateEach (s : State) (l m : LinkNo) (cs : List Channel) (d : Channel) :
    (s.truncateEach l cs).context? m d = if l = m ∧ d ∈ cs then none else s.context? m d := by
  induction cs generalizing s with
  | nil => simp [State.truncateEach]
  | cons c cs ih =>
    rw [State.truncateEach_cons, ih, State.context?_truncate]
    by_cases hl : l = m
    · by_cases hd : d ∈ cs
      · simp [hl, hd]
      · by_cases hc : c = d
        · simp [hl, hc]
        · simp [hl, hc, hd, Ne.symm hc]
    · simp [hl]

/-- The truncations write the contexts and the counters of their link, and of those only TRUNCATED. -/
theorem State.links_truncateEach (s : State) (l : LinkNo) (cs : List Channel) :
    (∀ m, m ≠ l → look (s.truncateEach l cs).links m = look s.links m) ∧
      look (s.truncateEach l cs).links l = { look s.links l with
        contexts := (look (s.truncateEach l cs).links l).contexts
        counters := (look (s.truncateEach l cs).links l).counters } ∧
      ∀ n, n ≠ LinkCounter.truncated.place →
        look (look (s.truncateEach l cs).links l).counters n = look (look s.links l).counters n := by
  induction cs generalizing s with
  | nil => exact ⟨fun _ _ => rfl, rfl, fun _ _ => rfl⟩
  | cons c cs ih =>
    obtain ⟨hother, hself, hcounter⟩ := ih (s.truncate l c)
    have hlink := s.links_truncate l c
    refine ⟨fun m hm => ?_, ?_, fun n hn => ?_⟩
    · rw [State.truncateEach_cons, hother m hm, hlink, look_put_ne _ _ (Ne.symm hm)]
    · rw [State.truncateEach_cons, hself, hlink, look_put_same]
      split_ifs <;> rfl
    · rw [State.truncateEach_cons, hcounter n hn, hlink, look_put_same]
      split_ifs
      · exact look_put_ne _ _ (Ne.symm hn)
      · rfl

/-- A saturating counter that rises several times. -/
theorem toNat_saturate (n : U16) : (saturate n).toNat = min 65535 (n.toNat + 1) := by
  unfold saturate
  split_ifs with h
  · rw [h]; rfl
  · have hne : n.toNat ≠ 65535 := fun he => h (BitVec.eq_of_toNat_eq he)
    have hlt := n.isLt
    have hone : (1 : U16).toNat = 1 := rfl
    rw [BitVec.toNat_add, hone]
    omega

/-- TRUNCATED counts each open frame among the contexts (R134). -/
theorem State.truncated_truncateEach (s : State) (l : LinkNo) (cs : List Channel) (hnd : cs.Nodup) :
    (look (look (s.truncateEach l cs).links l).counters LinkCounter.truncated.place).toNat =
      min 65535 ((look (look s.links l).counters LinkCounter.truncated.place).toNat +
        cs.countP fun c => (s.context? l c).isSome) := by
  induction cs generalizing s with
  | nil =>
    have hlt := (look (look s.links l).counters LinkCounter.truncated.place).isLt
    exact (Nat.min_eq_right (Nat.le_of_lt_succ hlt)).symm
  | cons c cs ih =>
    obtain ⟨hc, hnd⟩ := List.nodup_cons.mp hnd
    have hsame : (cs.countP fun d => ((s.truncate l c).context? l d).isSome) = cs.countP fun d => (s.context? l d).isSome := by
      refine List.countP_congr fun d hd => ?_
      rw [State.context?_truncate, if_neg (by rintro ⟨-, rfl⟩; exact hc hd)]
    rw [State.truncateEach_cons, ih _ hnd, hsame, State.links_truncate, look_put_same, List.countP_cons]
    by_cases hopen : (s.context? l c).isSome = true
    · have hcount : look (((look s.links l).count .truncated).withContext c none).counters LinkCounter.truncated.place =
          saturate (look (look s.links l).counters LinkCounter.truncated.place) := look_put_same _ _ _
      rw [if_pos hopen, if_pos hopen, hcount, toNat_saturate]
      omega
    · rw [if_neg hopen, if_neg hopen]
      omega

/-- The records that no truncated context claims are left. -/
theorem State.truncateEach_other {s : State} {l : LinkNo} {i : RecordNo} {cs : List Channel}
    (h : ∀ c ∈ cs, ¬ s.ClaimedAt l c i) :
    look (s.truncateEach l cs).records i = look s.records i ∧
      look (s.truncateEach l cs).releaseSet i = look s.releaseSet i := by
  induction cs generalizing s with
  | nil => exact ⟨rfl, rfl⟩
  | cons c cs ih =>
    obtain ⟨hrecord, hrelease⟩ := State.truncate_other (h c (List.mem_cons_self ..))
    have hrest := ih (s := s.truncate l c) fun d hd hclaimed =>
      h d (List.mem_cons_of_mem _ hd) (State.claimedAt_truncate.mp hclaimed).2
    rw [State.truncateEach_cons, hrest.1, hrest.2]
    exact ⟨hrecord, hrelease⟩

/-- A record that a truncated context claims is counted as damaged and unclaimed, once. -/
theorem State.ClaimsAgree.truncateEach_claimed {s : State} (h : s.ClaimsAgree) {l : LinkNo} {i : RecordNo} {p : Placement}
    {cs : List Channel} {d : Channel} (hd : d ∈ cs) (hclaimed : s.ClaimedAt l d i) (hp : s.placement? i = some p) :
    look (s.truncateEach l cs).records i =
        { look s.records i with placement := some { p.count .damaged with claim := none } } ∧
      look (s.truncateEach l cs).releaseSet i = (look s.releaseSet i || p.drain.isSome) := by
  induction cs generalizing s with
  | nil => cases hd
  | cons c cs ih =>
    rw [State.truncateEach_cons]
    by_cases hc : c = d
    · subst hc
      obtain ⟨hrecord, hrelease⟩ := State.truncate_claimed hclaimed hp
      have hrest := State.truncateEach_other (s := s.truncate l c) (l := l) (i := i) (cs := cs) fun e _ he => by
        obtain ⟨hne, he⟩ := State.claimedAt_truncate.mp he
        exact hne (h.claimedAt_unique hclaimed he)
      rw [hrest.1, hrest.2]
      exact ⟨hrecord, hrelease⟩
    · obtain ⟨hrecord, hrelease⟩ := State.truncate_other (s := s) (l := l) (c := c) (i := i) fun he =>
        hc (h.claimedAt_unique he hclaimed).2
      have hmem : d ∈ cs := (List.mem_cons.mp hd).resolve_left (Ne.symm hc)
      have hrest := ih (h.truncate l c) hmem (State.claimedAt_truncate.mpr ⟨fun he => hc he.2, hclaimed⟩)
        ((congrArg Record.placement hrecord).trans hp)
      rw [hrest.1, hrest.2, hrecord, hrelease]
      exact ⟨rfl, rfl⟩

/-- No abort request travels on to a claim that one of the truncations ended. -/
theorem State.ClaimsAgree.mem_aborts_truncateEach {s : State} (h : s.ClaimsAgree) (l : LinkNo) (cs : List Channel)
    (a : Abort) :
    a ∈ (s.truncateEach l cs).aborts ↔ a ∈ s.aborts ∧ ∀ c ∈ cs, ¬ s.ClaimedAt l c a.record := by
  induction cs generalizing s with
  | nil => simp [State.truncateEach]
  | cons c cs ih =>
    rw [State.truncateEach_cons, ih (h.truncate l c), h.mem_aborts_truncate, List.forall_mem_cons, and_assoc]
    refine and_congr_right fun _ => and_congr_right fun hc => forall₂_congr fun d _ => not_congr ?_
    rw [State.claimedAt_truncate]
    refine and_iff_right_of_imp fun hd he => hc ?_
    rw [he.2]
    exact hd

/-! ## The truncation of every frame of a link (R123, R136) -/

theorem State.truncateAll_eq (s : State) (l : LinkNo) : s.truncateAll l = s.truncateEach l (List.finRange 16) := rfl

/-- A record is claimed on a link exactly when one of its sixteen contexts claims it. -/
theorem State.claimedOn_iff {s : State} {l : LinkNo} {i : RecordNo} :
    s.ClaimedOn l i ↔ ∃ c ∈ List.finRange 16, s.ClaimedAt l c i := by
  simp [State.ClaimedOn, State.ClaimedAt]

/-- Under R16 the truncation of every context of a link truncates its frames, also where its receiver is written anew
afterwards with the same contexts and counters. -/
theorem State.ClaimsAgree.framesTruncated {s : State} (h : s.ClaimsAgree) {l : LinkNo} {t : State}
    (ht : t = s.truncateAll l) {k : Link} (hcontexts : k.contexts = (look t.links l).contexts)
    (hcounters : k.counters = (look t.links l).counters) : s.FramesTruncated (t.setLink l k) l := by
  obtain ⟨cs, hcs⟩ : ∃ cs, cs = List.finRange 16 := ⟨_, rfl⟩
  have hmem (c : Channel) : c ∈ cs := hcs ▸ List.mem_finRange c
  have hnodup : cs.Nodup := hcs ▸ List.nodup_finRange 16
  have hclaimedOn (i : RecordNo) : s.ClaimedOn l i ↔ ∃ c ∈ cs, s.ClaimedAt l c i := hcs ▸ State.claimedOn_iff
  rw [State.truncateAll_eq, ← hcs] at ht
  subst ht
  unfold State.FramesTruncated
  rw [← hcs]
  have hself : look ((s.truncateEach l cs).setLink l k).links l = k := look_put_same _ _ _
  refine ⟨fun c => ?_, fun m hm => ?_, ?_, fun i p hp hc => ?_, fun i hc => ?_, fun a => ?_⟩
  · have hnone := s.context?_truncateEach l l cs c
    rw [if_pos ⟨rfl, hmem c⟩] at hnone
    rw [State.context?, hself, hcontexts]
    exact hnone
  · exact (look_put_ne _ _ (Ne.symm hm)).trans ((s.links_truncateEach l cs).1 m hm)
  · rw [hself, hcounters]
    exact s.truncated_truncateEach l cs hnodup
  · obtain ⟨c, hc, hclaimed⟩ := (hclaimedOn i).mp hc
    exact h.truncateEach_claimed hc hclaimed hp
  · exact State.truncateEach_other fun c hc' hclaimed => hc ((hclaimedOn i).mpr ⟨c, hc', hclaimed⟩)
  · rw [hclaimedOn]
    refine (h.mem_aborts_truncateEach l cs a).trans (and_congr_right fun _ => ?_)
    simp

end Sys2Proof.Machine

/-! SUPPORT. CONFIGURE-LINK: its checks, and what the link makes of the configuration (R108, R109, R120, R136). -/

namespace Sys2Proof.Machine

/-! ## The checks of CONFIGURE-LINK (R108) -/

/-- A record that is not FREE holds a key on a link. -/
def State.HoldsLink (s : State) (l : LinkNo) (i : RecordNo) : Prop := ∃ b, s.placement? i = some b ∧ b.key.link = l

/-- The test by which `holderOf` searches. -/
def State.holdTest (s : State) (l : LinkNo) (i : RecordNo) : Bool :=
  ((s.placement? i).map fun p => decide (p.key.link = l)).getD false

theorem State.holdTest_iff {s : State} {l : LinkNo} {i : RecordNo} : s.holdTest l i = true ↔ s.HoldsLink l i := by
  unfold State.holdTest State.HoldsLink
  cases s.placement? i <;> simp

theorem State.holderOf_eq_find? (s : State) (l : LinkNo) : s.holderOf l = (List.finRange 64).find? (s.holdTest l) := by
  unfold State.holderOf State.holdTest
  congr 1
  funext i
  cases s.placement? i <;> rfl

theorem State.holderOf_eq_some {s : State} {l : LinkNo} {i : RecordNo} :
    s.holderOf l = some i ↔ s.HoldsLink l i ∧ ∀ j, j < i → ¬ s.HoldsLink l j := by
  simp only [State.holderOf_eq_find?, find?_finRange_eq_some, State.holdTest_iff, ← Bool.not_eq_true]

theorem State.holderOf_eq_none {s : State} {l : LinkNo} : s.holderOf l = none ↔ ∀ i, ¬ s.HoldsLink l i := by
  simp only [State.holderOf_eq_find?, find?_finRange_eq_none, State.holdTest_iff, ← Bool.not_eq_true]

@[simp] theorem State.begun_holderOf (s : State) (x : Source) (q : Request) (l : LinkNo) :
    (s.begun x q).holderOf l = s.holderOf l := by rw [State.begun_frame]; rfl

/-- The mode byte is read as 0 tagged or 1 single. -/
theorem singleOf?_of_le {mode : Byte} (h : mode.toNat ≤ 1) : singleOf? mode = some (decide (mode = 1)) := by
  have hmode : mode = 0 ∨ mode = 1 := by
    rcases Nat.le_one_iff_eq_zero_or_eq_one.mp h with h | h
    · exact .inl (BitVec.eq_of_toNat_eq h)
    · exact .inr (BitVec.eq_of_toNat_eq h)
  rcases hmode with rfl | rfl <;> rfl

theorem singleOf?_of_lt {mode : Byte} (h : 1 < mode.toNat) : singleOf? mode = none := by
  have h0 : mode ≠ 0 := by rintro rfl; simp at h
  have h1 : mode ≠ 1 := by rintro rfl; simp at h
  rw [singleOf?, if_neg h0, if_neg h1]

theorem LinkParams.parse_eq_some {p : LinkParams} {l : LinkNo} {z : PixelSize} (hl : l.val = p.link.toNat)
    (hm : p.mode.toNat ≤ 1) (hz : PixelSize.ofByte? p.pixelSize = some z) :
    p.parse = some (l, decide (p.mode = 1), z) := by
  rw [LinkParams.parse, inRange?_eq_some.mpr hl, singleOf?_of_le hm, hz]

theorem LinkParams.parse_eq_none {p : LinkParams}
    (h : 5 < p.link.toNat ∨ 1 < p.mode.toNat ∨ (p.pixelSize ≠ 2 ∧ p.pixelSize ≠ 4)) : p.parse = none := by
  unfold LinkParams.parse
  rcases h with hl | hm | ⟨htwo, hfour⟩
  · rw [inRange?_eq_none.mpr hl]
  · rw [singleOf?_of_lt hm]
    cases inRange? 6 p.link <;> rfl
  · have hz : PixelSize.ofByte? p.pixelSize = none := by rw [PixelSize.ofByte?, if_neg htwo, if_neg hfour]
    rw [hz]
    cases inRange? 6 p.link <;> cases singleOf? p.mode <;> rfl

/-- The mode or the pixel size changes (R108). -/
theorem Link.changes_iff {k : Link} {single : Bool} {z : PixelSize} :
    k.changes single z = true ↔ k.single ≠ single ∨ k.pixelSize ≠ z := decide_eq_true_iff

/-! ## What the link makes of it (R109, R120, R136) -/

/-- A link in use is emptied exactly when it is disabled or its configuration changes (R136). -/
theorem Link.emptiedBy_iff {k : Link} {enable single : Bool} {z : PixelSize} :
    k.emptiedBy enable single z = true ↔ k.state ≠ .disabled ∧ (enable = false ∨ k.changes single z = true) := by
  simp [Link.emptiedBy]

section
variable {s : State} {l : LinkNo} (single : Bool) (z : PixelSize)

theorem State.configureLink_disabled_off (h : (look s.links l).state = .disabled) :
    s.configureLink l false single z =
      s.setLink l { look s.links l with enable := false, single := single, pixelSize := z } := by
  have hkept : ¬ (look s.links l).emptiedBy false single z = true := fun he => (Link.emptiedBy_iff.mp he).1 h
  simp only [State.configureLink]
  rw [if_neg hkept, if_neg (by simp)]

theorem State.configureLink_disabled_on (h : (look s.links l).state = .disabled) :
    s.configureLink l true single z = s.setLink l { look s.links l with
      enable := true, single := single, pixelSize := z, state := .seeking, goodRun := 0, errorRun := 0 } := by
  have hkept : ¬ (look s.links l).emptiedBy true single z = true := fun he => (Link.emptiedBy_iff.mp he).1 h
  simp only [State.configureLink]
  rw [if_neg hkept, if_pos ⟨h, trivial⟩]
  simp only [State.setLink, look_put_same, put_put_same]

theorem State.configureLink_unchanged {single : Bool} {z : PixelSize} (h : (look s.links l).state ≠ .disabled)
    (hc : ¬ (look s.links l).changes single z = true) :
    s.configureLink l true single z =
      s.setLink l { look s.links l with enable := true, single := single, pixelSize := z } := by
  have hkept : ¬ (look s.links l).emptiedBy true single z = true := fun he =>
    (Link.emptiedBy_iff.mp he).2.elim (by simp) hc
  simp only [State.configureLink]
  rw [if_neg hkept, if_neg fun hd => h hd.1]

/-- A configuration that does not empty the receiver writes it alone, with its frames, its FIFO and its counters left. -/
theorem State.configureLink_kept {enable single : Bool} {z : PixelSize}
    (h : ¬ (look s.links l).emptiedBy enable single z = true) :
    ∃ state goodRun errorRun, s.configureLink l enable single z = s.setLink l { look s.links l with
      state := state, enable := enable, single := single, pixelSize := z, goodRun := goodRun, errorRun := errorRun } := by
  cases hstate : (look s.links l).state with
  | disabled =>
    cases enable with
    | false => exact ⟨_, _, _, State.configureLink_disabled_off single z hstate⟩
    | true => exact ⟨_, _, _, State.configureLink_disabled_on single z hstate⟩
  | seeking | locked =>
    have hon : (look s.links l).state ≠ .disabled := by rw [hstate]; decide
    have hkept : ¬ (enable = false ∨ (look s.links l).changes single z = true) := fun he =>
      h (Link.emptiedBy_iff.mpr ⟨hon, he⟩)
    obtain ⟨he, hc⟩ := not_or.mp hkept
    obtain rfl : enable = true := Bool.eq_true_of_not_eq_false he
    exact ⟨_, _, _, State.configureLink_unchanged hon hc⟩

/-- A disable or restart truncates every frame of the link and writes its receiver anew (R136). -/
theorem State.configureLink_emptied {enable single : Bool} {z : PixelSize}
    (h : (look s.links l).emptiedBy enable single z = true) :
    s.configureLink l enable single z = (s.truncateAll l).setLink l { look (s.truncateAll l).links l with
      state := if enable then .seeking else .disabled
      enable := enable, single := single, pixelSize := z, goodRun := 0, errorRun := 0, fifo := [] } := by
  simp only [State.configureLink]
  rw [if_pos h]
  simp only [State.emptyReceiver, State.setLink, look_put_same, put_put_same]

end

section
variable {s : State} {x : Source} {r : CommandRecord} (hs : s.Starts x (.command r)) {p : LinkParams}
  (hr : r.command = .configureLink p)
include hs hr

theorem exec_configureLink_badParameter (h : p.parse = none) :
    exec .configureLink s = .next (s.answered x r .badParameter none .empty) := by
  refine (hs.run (a := p) (by rw [hr]; rfl) _).trans (congrArg Host.Outcome.next ?_)
  simp only [h]
  rw [hs.finish, hr]
  rfl

theorem exec_configureLink_inUse {l : LinkNo} {single : Bool} {z : PixelSize} {i : RecordNo}
    (h : p.parse = some (l, single, z)) (hc : (look s.links l).changes single z = true) (hi : s.holderOf l = some i) :
    exec .configureLink s = .next (s.answered x r .linkInUse none (.record i)) := by
  refine (hs.run (a := p) (by rw [hr]; rfl) _).trans (congrArg Host.Outcome.next ?_)
  simp only [h, State.begun_holderOf, hi, State.begun_links, hc, if_true]
  rw [hs.finish, hr]
  rfl

/-- A configuration that no record hinders completes (R108, R109). -/
theorem exec_configureLink_completes {l : LinkNo} {single : Bool} {z : PixelSize} (h : p.parse = some (l, single, z))
    (hfree : (look s.links l).changes single z = true → ∀ i, ¬ s.HoldsLink l i) :
    exec .configureLink s = .next ((s.begun x (.command r)).completeConfigureLink r l p.enable single z) := by
  refine (hs.run (a := p) (by rw [hr]; rfl) _).trans (congrArg Host.Outcome.next ?_)
  simp only [h, State.begun_holderOf, State.begun_links]
  cases hi : s.holderOf l with
  | none => rfl
  | some i =>
    have hc : ¬ (look s.links l).changes single z = true := fun hc =>
      hfree hc i (State.holderOf_eq_some.mp hi).1
    simp only [hc, if_false, Bool.false_eq_true]

end

/-- A configuration that leaves the frames completes with no grant (R109, R145). -/
theorem State.completeConfigureLink_kept {s : State} {l : LinkNo} {enable single : Bool} {z : PixelSize}
    (h : ¬ (look s.links l).emptiedBy enable single z = true) (r : CommandRecord) {k : Link}
    (hk : s.configureLink l enable single z = s.setLink l k) :
    s.completeConfigureLink r l enable single z =
      (s.setLink l k).finish r .ok (.linkConfigured l enable single z k.state) := by
  simp only [State.completeConfigureLink]
  rw [if_neg h, hk, State.setLink_links, look_put_same]

/-- Settles O33: the refusals, and then by the state of the link. -/
theorem configureLinkChecksAndWrites : Obligations.ConfigureLinkChecksAndWrites := by
  intro s x r p hs hr
  refine ⟨fun hbad => exec_configureLink_badParameter hs hr (LinkParams.parse_eq_none hbad), fun l z hl hm hz => ?_⟩
  intro k single holds changed done
  have hparse : p.parse = some (l, single, z) := LinkParams.parse_eq_some hl hm hz
  refine ⟨fun i hc hi hlow => ?_, fun hfree => ?_⟩
  · exact exec_configureLink_inUse hs hr hparse (Link.changes_iff.mpr hc) (State.holderOf_eq_some.mpr ⟨hi, hlow⟩)
  · have hrun := exec_configureLink_completes hs hr hparse fun hc => hfree (Link.changes_iff.mp hc)
    have hlinks := s.begun_links x (.command r)
    have hdone (k' : Link) (h : ¬ k.emptiedBy p.enable single z = true)
        (hk : (s.begun x (.command r)).configureLink l p.enable single z = (s.begun x (.command r)).setLink l k') :
        exec .configureLink s = .next { done k'.state with links := put s.links l k' } := by
      rw [hrun, State.completeConfigureLink_kept (by rw [hlinks]; exact h) r hk, State.finish_eq_concluded]
      simp only [done, hs.answered_eq, State.setLink, hlinks, hr]
      rfl
    have hkept (hd : k.state = .disabled) : ¬ k.emptiedBy p.enable single z = true := fun he =>
      (Link.emptiedBy_iff.mp he).1 hd
    refine ⟨fun hd he => ?_, fun hd he => ?_, fun hd he hc => ?_⟩
    · have hconf := State.configureLink_disabled_off (s := s.begun x (.command r)) (l := l) single z
        (by rw [hlinks]; exact hd)
      rw [hlinks, ← he] at hconf
      rw [hdone _ (hkept hd) hconf]
      simp only [done, k, hd, he]
    · have hconf := State.configureLink_disabled_on (s := s.begun x (.command r)) (l := l) single z
        (by rw [hlinks]; exact hd)
      rw [hlinks, ← he] at hconf
      rw [hdone _ (hkept hd) hconf]
      simp only [done, k, he]
    · have hchanges : ¬ k.changes single z = true := fun h => hc (Link.changes_iff.mp h)
      have hempty : ¬ k.emptiedBy p.enable single z = true := fun h =>
        (Link.emptiedBy_iff.mp h).2.elim (by simp [he]) hchanges
      have hconf := State.configureLink_unchanged (s := s.begun x (.command r)) (l := l) (by rw [hlinks]; exact hd)
        (by rw [hlinks]; exact hchanges)
      rw [hlinks, ← he] at hconf
      rw [hdone _ hempty hconf]
      obtain ⟨hsingle, hsize⟩ := not_or.mp hc
      rw [← not_not.mp hsingle, ← not_not.mp hsize, he]

end Sys2Proof.Machine

/-! SUPPORT. A receiver that is emptied: CONFIGURE-LINK that disables or restarts a link, and the loss of lock (R109, R123,
R136, R145). -/

namespace Sys2Proof.Machine

/-! ## What the ends of frames write -/

/-- `t` differs from `s` at most in what the ends of frames write: records, the Release set, the travelling abort requests
and the receivers. -/
def State.OffClaims (s t : State) : Prop :=
  t = { s with records := t.records, links := t.links, releaseSet := t.releaseSet, aborts := t.aborts }

theorem State.OffClaims.refl (s : State) : s.OffClaims s := rfl

theorem State.OffClaims.trans {s t u : State} (h : s.OffClaims t) (k : t.OffClaims u) : s.OffClaims u := by
  unfold State.OffClaims at *
  rw [k, h]

theorem State.offClaims_setLink (s : State) (l : LinkNo) (k : Link) : s.OffClaims (s.setLink l k) := rfl

theorem State.offClaims_unclaim (s : State) (i : RecordNo) (n : RecordCounter) : s.OffClaims (s.unclaim i n) := by
  cases hp : s.placement? i with
  | none => rw [State.unclaim_none hp]; exact .refl s
  | some p => rw [State.unclaim_some hp]; rfl

theorem State.offClaims_endFrame (s : State) (l : LinkNo) (c : Channel) (f : Frame) (n : RecordCounter) :
    s.OffClaims (s.endFrame l c f n) := by
  cases hr : f.phase.record? with
  | none => rw [State.endFrame_unclaimed hr]; rfl
  | some i => rw [State.endFrame_claimed hr]; exact (s.offClaims_unclaim i n).trans rfl

theorem State.offClaims_truncate (s : State) (l : LinkNo) (c : Channel) : s.OffClaims (s.truncate l c) := by
  cases hf : s.context? l c with
  | none => rw [State.truncate_idle hf]; exact .refl s
  | some f =>
    rw [State.truncate_open hf]
    exact (s.offClaims_setLink l _).trans (State.offClaims_endFrame _ l c f .damaged)

theorem State.offClaims_truncateEach (s : State) (l : LinkNo) (cs : List Channel) : s.OffClaims (s.truncateEach l cs) := by
  induction cs generalizing s with
  | nil => exact .refl s
  | cons c cs ih => exact (s.offClaims_truncate l c).trans (ih _)

theorem State.offClaims_truncateAll (s : State) (l : LinkNo) : s.OffClaims (s.truncateAll l) :=
  s.offClaims_truncateEach l _

/-- Of the receivers the truncation of every frame writes the contexts and TRUNCATED of one. -/
theorem State.links_truncateAll (s : State) (l : LinkNo) :
    (∀ m, m ≠ l → look (s.truncateAll l).links m = look s.links m) ∧
      look (s.truncateAll l).links l = { look s.links l with
        contexts := (look (s.truncateAll l).links l).contexts
        counters := (look (s.truncateAll l).links l).counters } ∧
      ∀ n, n ≠ LinkCounter.truncated.place →
        look (look (s.truncateAll l).links l).counters n = look (look s.links l).counters n := by
  rw [State.truncateAll_eq]
  exact s.links_truncateEach l _

theorem State.FramesTruncated.concluded {s t : State} {l : LinkNo} (h : s.FramesTruncated t l) (r : Response) :
    s.FramesTruncated (t.concluded r) l := h

/-! ## CONFIGURE-LINK that disables or restarts (R136) -/

/-- A configuration that empties the link's receiver completes with the grants that this makes possible (R109, R145). -/
theorem State.completeConfigureLink_emptied {s : State} {l : LinkNo} {enable single : Bool} {z : PixelSize}
    (h : (look s.links l).emptiedBy enable single z = true) (r : CommandRecord) {t : State} {k : Link}
    (hk : s.configureLink l enable single z = t.setLink l k) :
    s.completeConfigureLink r l enable single z =
      ((t.setLink l k).finish r .ok (.linkConfigured l enable single z k.state)).grantAll := by
  simp only [State.completeConfigureLink]
  rw [if_pos h, hk, State.setLink_links, look_put_same]

theorem State.ClaimsAgree.begun {s : State} (h : s.ClaimsAgree) (x : Source) (q : Request) : (s.begun x q).ClaimsAgree :=
  h.congr (s.begun_placement? x q) (State.context?_congr (s.begun_links x q))

/-- Settles O34: the receiver is emptied on the state that has begun, and the result is posted there. -/
theorem configureLinkDisablesOrRestarts : Obligations.ConfigureLinkDisablesOrRestarts := by
  intro s x r p l z hs hr hl hm hz hagree hon single changed hfree hempties st
  have hparse : p.parse = some (l, single, z) := LinkParams.parse_eq_some hl hm hz
  have hemptied : (look s.links l).emptiedBy p.enable single z = true :=
    Link.emptiedBy_iff.mpr ⟨hon, hempties.imp_right Link.changes_iff.mpr⟩
  have hrun := exec_configureLink_completes hs hr hparse fun hc i ⟨b, hb, hbl⟩ => hfree (Link.changes_iff.mp hc) i b hb hbl
  obtain ⟨u, hu⟩ : ∃ u, u = s.begun x (.command r) := ⟨_, rfl⟩
  have hlinks : u.links = s.links := hu ▸ s.begun_links x (.command r)
  have hagree : u.ClaimsAgree := hu ▸ hagree.begun x (.command r)
  have hconf := State.configureLink_emptied (s := u) (l := l) (enable := p.enable) (single := single) (z := z)
    (by rw [hlinks]; exact hemptied)
  have hframe := u.offClaims_truncateAll l
  obtain ⟨_, hself, hcounter⟩ := u.links_truncateAll l
  obtain ⟨v, hv⟩ : ∃ v, v = u.truncateAll l := ⟨_, rfl⟩
  rw [← hv] at hconf hframe hself hcounter
  rw [hlinks] at hself hcounter
  rw [← hu, State.completeConfigureLink_emptied (by rw [hlinks]; exact hemptied) r hconf, State.finish_eq_concluded] at hrun
  refine ⟨_, hrun, ?_, ?_, ?_, fun n hn => ?_⟩
  · rw [hs.answered_eq, ← hu]
    simp only [State.concluded, State.setLink, hr]
    rw [hframe]
    rfl
  · rw [← hu]
    refine State.FramesTruncated.concluded ?_ _
    exact hagree.framesTruncated hv rfl rfl
  · rw [State.concluded, State.setLink_links, look_put_same, hself]
  · rw [State.concluded, State.setLink_links, look_put_same]
    exact hcounter n hn

end Sys2Proof.Machine

/-! SUPPORT. Segment arrivals: by the state of the link, the good and the error runs, the loss of lock, and the intake FIFO
(R120 to R123, R125). -/

namespace Sys2Proof.Machine

/-! ## A segment arrival, by the state of the link (R121 to R123) -/

/-- A segment handed over whole is taken with the payload its receiver reckons (R121). -/
theorem Segment.withPayload?_of_le {g : Segment} {z : PixelSize} {bs : List Byte} (h : g.payloadLength z ≤ bs.length) :
    g.withPayload? z bs = some { g with payload := bs.take (g.payloadLength z) } := if_pos h

section
variable {s : State} {l : LinkNo} {h : Vector Byte 8} {bs : List Byte}

theorem exec_segmentArrival_disabled (hl : (look s.links l).state = .disabled) :
    exec (.segmentArrival l h bs) s = .next s := by
  change Host.Outcome.next (s.takeSegment l (parseHeader h) bs) = _
  simp only [State.takeSegment, hl]

theorem exec_segmentArrival_seeking_error (hl : (look s.links l).state = .seeking) (hh : parseHeader h = none) :
    exec (.segmentArrival l h bs) s = .next (s.setLink l ((look s.links l).seek false)) := by
  change Host.Outcome.next (s.takeSegment l (parseHeader h) bs) = _
  simp only [State.takeSegment, hl, hh]

theorem exec_segmentArrival_locked_error (hl : (look s.links l).state = .locked) (hh : parseHeader h = none) :
    exec (.segmentArrival l h bs) s = .next (s.lockedError l) := by
  change Host.Outcome.next (s.takeSegment l (parseHeader h) bs) = _
  simp only [State.takeSegment, hl, hh]

variable {g : Segment} (hh : parseHeader h = some g) (hwhole : g.payloadLength (look s.links l).pixelSize ≤ bs.length)
include hh hwhole

theorem exec_segmentArrival_seeking_good (hl : (look s.links l).state = .seeking) :
    exec (.segmentArrival l h bs) s = .next (s.setLink l ((look s.links l).seek true)) := by
  change Host.Outcome.next (s.takeSegment l (parseHeader h) bs) = _
  simp only [State.takeSegment, hl, hh, Segment.withPayload?_of_le hwhole, Option.isSome_some, if_true]

theorem exec_segmentArrival_locked_good (hl : (look s.links l).state = .locked) :
    exec (.segmentArrival l h bs) s =
      .next (s.lockedGood l { g with payload := bs.take (g.payloadLength (look s.links l).pixelSize) }) := by
  change Host.Outcome.next (s.takeSegment l (parseHeader h) bs) = _
  simp only [State.takeSegment, hl, hh, Segment.withPayload?_of_le hwhole]

end

theorem Link.seek_good_below {k : Link} (h : k.goodRun + 1 < 4) : k.seek true = { k with goodRun := k.goodRun + 1 } := by
  rw [Link.seek, if_pos rfl, if_neg (Nat.not_le_of_lt h)]

/-- The fourth good header enters LOCKED (R122). -/
theorem Link.seek_good_fourth {k : Link} (h : k.goodRun + 1 = 4) :
    k.seek true = { k with state := .locked, goodRun := 4, errorRun := 0 } := by
  rw [Link.seek, if_pos rfl, if_pos (Nat.le_of_eq h.symm), h]

/-- Settles O42: by the state of the link and the header. -/
theorem seekingCountsGoodHeaders : Obligations.SeekingCountsGoodHeaders := by
  intro s l h bs k
  refine ⟨exec_segmentArrival_disabled, exec_segmentArrival_seeking_error, fun g hl hh hwhole => ?_⟩
  rw [exec_segmentArrival_seeking_good hh hwhole hl]
  exact ⟨fun hbelow => by rw [Link.seek_good_below hbelow]; rfl, fun hfourth => by rw [Link.seek_good_fourth hfourth]; rfl⟩

/-! ## The loss of lock (R123) -/

/-- A write of a receiver that keeps its contexts leaves every context. -/
theorem State.context?_setLink {s : State} {l : LinkNo} {k : Link} (h : k.contexts = (look s.links l).contexts)
    (m : LinkNo) (c : Channel) : (s.setLink l k).context? m c = s.context? m c := by
  unfold State.context?
  rw [State.setLink_links, look_put]
  split_ifs with hl
  · rw [h, hl]
  · rfl

/-- The truncation of a link's frames is told from the state before its receiver was written, where that write left the
contexts and TRUNCATED. -/
theorem State.FramesTruncated.of_setLink {s t : State} {l : LinkNo} {k : Link} (h : (s.setLink l k).FramesTruncated t l)
    (hc : k.contexts = (look s.links l).contexts)
    (hn : look k.counters LinkCounter.truncated.place = look (look s.links l).counters LinkCounter.truncated.place) :
    s.FramesTruncated t l := by
  have hself : look (s.setLink l k).links l = k := look_put_same _ _ _
  obtain ⟨hidle, hother, hcount, hclaimed, hfree, haborts⟩ := h
  rw [hself, hn] at hcount
  simp only [State.ClaimedOn, State.context?_setLink hc] at hcount hclaimed hfree haborts
  exact ⟨hidle, fun m hm => (hother m hm).trans (look_put_ne _ _ (Ne.symm hm)), hcount, hclaimed, hfree, haborts⟩

/-- A header error below the eighth in a row is counted (R123). -/
theorem State.lockedError_below {s : State} {l : LinkNo} (h : (look s.links l).errorRun + 1 < 8) :
    s.lockedError l =
      s.setLink l { (look s.links l).count .header with errorRun := (look s.links l).errorRun + 1 } := by
  have hnot : ¬ 8 ≤ ((look s.links l).count .header).errorRun + 1 := Nat.not_le_of_lt h
  simp only [State.lockedError]
  rw [if_neg hnot]
  rfl

/-- The eighth in a row loses lock (R123). -/
theorem State.lockedError_eighth {s : State} {l : LinkNo} (h : 8 ≤ (look s.links l).errorRun + 1) :
    s.lockedError l = ((s.setLink l
      { (look s.links l).count .header with errorRun := (look s.links l).errorRun + 1 }).loseLock l).grantAll := by
  have h' : 8 ≤ ((look s.links l).count .header).errorRun + 1 := h
  simp only [State.lockedError]
  rw [if_pos h']
  rfl

/-- Settles O44: HEADER is counted first, and at the eighth error the receiver loses lock. -/
theorem headerErrorsLoseLockAtTheEighth : Obligations.HeaderErrorsLoseLockAtTheEighth := by
  intro s l h bs hl hh k header
  rw [exec_segmentArrival_locked_error hl hh]
  refine ⟨fun hbelow => ?_, fun heighth hagree => ?_⟩
  · rw [State.lockedError_below hbelow]
    rfl
  · obtain ⟨k', hk'⟩ : ∃ k' : Link, k' = { k.count .header with errorRun := k.errorRun + 1 } := ⟨_, rfl⟩
    have hcontexts : k'.contexts = k.contexts := by rw [hk']; rfl
    have hheader : look k'.counters header = saturate (look k.counters header) := by rw [hk']; exact look_put_same _ _ _
    have hcounters (n : Fin 8) (hn : n ≠ header) : look k'.counters n = look k.counters n := by
      rw [hk']; exact look_put_ne _ _ (Ne.symm hn)
    have hrun := State.lockedError_eighth (Nat.le_of_eq heighth.symm)
    rw [← hk'] at hrun
    have hagree' : (s.setLink l k').ClaimsAgree := hagree.congr (fun _ => rfl) (State.context?_setLink hcontexts)
    have hframe := (s.offClaims_setLink l k').trans ((s.setLink l k').offClaims_truncateAll l)
    obtain ⟨_, hself, hcounter⟩ := (s.setLink l k').links_truncateAll l
    simp only [State.loseLock] at hrun
    obtain ⟨v, hv⟩ : ∃ v, v = (s.setLink l k').truncateAll l := ⟨_, rfl⟩
    rw [← hv, State.setLink_links, look_put_same] at hself hcounter
    rw [← hv] at hrun hframe
    have hne : header ≠ LinkCounter.truncated.place := by decide
    refine ⟨_, congrArg Host.Outcome.next hrun, ?_, ?_, ?_, ?_, fun n hn hn' => ?_⟩
    · rw [hframe]
      rfl
    · refine State.FramesTruncated.of_setLink (k := k') ?_ hcontexts (hcounters _ hne.symm)
      exact hagree'.framesTruncated hv rfl rfl
    · rw [State.setLink_links, look_put_same, hself, hk', heighth]
      rfl
    · rw [State.setLink_links, look_put_same]
      exact (hcounter header hne).trans hheader
    · rw [State.setLink_links, look_put_same]
      exact (hcounter n hn').trans (hcounters n hn)

/-! ## The intake FIFO (R125) -/

/-- An OPEN or CLOSE of a context waits (R125). -/
theorem Link.frameEdgeWaits_iff {k : Link} {c : Channel} :
    k.frameEdgeWaits c = true ↔ ∃ e ∈ k.fifo, e.kind ≠ .line ∧ k.contextOf e = c := by
  simp [Link.frameEdgeWaits]

section
variable {s : State} {l : LinkNo}

/-- Behind 1 to 3 segments a segment joins as the newest (R125). -/
theorem State.offerSegment_joins (h : 1 ≤ (look s.links l).fifo.length) (h' : (look s.links l).fifo.length < 4)
    (g : Segment) :
    s.offerSegment l g = s.setLink l { look s.links l with fifo := (look s.links l).fifo ++ [g] } := by
  have hne : ¬ (look s.links l).fifo.isEmpty = true := by
    rw [List.isEmpty_iff]
    intro he
    rw [he] at h
    cases h
  simp only [State.offerSegment]
  rw [if_pos h', if_neg hne]

/-- With 4 waiting OVERRUN is counted, and a segment that is no LINE of an open frame, or whose frame ends or begins anew
before it, marks none (R125). -/
theorem State.offerSegment_overrun (h : 4 ≤ (look s.links l).fifo.length) {g : Segment}
    (hg : g.kind ≠ .line ∨ s.context? l ((look s.links l).contextOf g) = none ∨
      (look s.links l).frameEdgeWaits ((look s.links l).contextOf g) = true) :
    s.offerSegment l g = s.countLink l .overrun := by
  simp only [State.offerSegment]
  rw [if_neg (Nat.not_lt.mpr h)]
  rcases hg with hk | hc | he
  · cases hkind : g.kind with
    | line => exact absurd hkind hk
    | openFrame => rfl
    | closeFrame => rfl
  · rw [State.context?_countLink, hc]
    cases g.kind <;> rfl
  · rw [State.context?_countLink]
    cases hkind : g.kind with
    | openFrame => rfl
    | closeFrame => rfl
    | line =>
      cases s.context? l ((look s.links l).contextOf g) with
      | none => rfl
      | some f => exact if_pos he

/-- With 4 waiting a LINE of an open frame with no OPEN or CLOSE before it marks the frame damaged (R125). -/
theorem State.offerSegment_overrun_marks (h : 4 ≤ (look s.links l).fifo.length) {g : Segment} (hk : g.kind = .line)
    {f : Frame} (hf : s.context? l ((look s.links l).contextOf g) = some f)
    (he : ¬ (look s.links l).frameEdgeWaits ((look s.links l).contextOf g) = true) :
    s.offerSegment l g =
      (s.countLink l .overrun).setContext l ((look s.links l).contextOf g) (some { f with damaged := true }) := by
  simp only [State.offerSegment]
  rw [if_neg (Nat.not_lt.mpr h), State.context?_countLink, hf, hk]
  exact if_neg he

end

/-- Settles O45: by how many segments wait. -/
theorem goodSegmentsJoinTheFifoOrOverrun : Obligations.GoodSegmentsJoinTheFifoOrOverrun := by
  intro s l h bs g hl hh hlength k whole c overrun counted edgeWaits
  have hrun : exec (.segmentArrival l h bs) s = .next (s.lockedGood l whole) :=
    exec_segmentArrival_locked_good hh hlength hl
  have hwhole : whole.kind = g.kind := rfl
  have hof : ({ k with errorRun := 0 } : Link).contextOf whole = c := rfl
  rw [hrun]
  clear_value whole
  have hself : look (s.setLink l { k with errorRun := 0 }).links l = { k with errorRun := 0 } := look_put_same _ _ _
  have hcontext : (s.setLink l { k with errorRun := 0 }).context? l c = look k.contexts c :=
    State.context?_setLink (k := { k with errorRun := 0 }) rfl l c
  have hedge : ({ k with errorRun := 0 } : Link).frameEdgeWaits c = true ↔ edgeWaits := Link.frameEdgeWaits_iff
  refine ⟨fun hsome hbelow => ?_, fun hempty hkind => ?_, fun hfull hg => ?_, fun f hfull hkind hf hno => ?_⟩
  · rw [State.lockedGood, State.offerSegment_joins (by rw [hself]; exact hsome) (by rw [hself]; exact hbelow), hself]
    simp only [State.setLink, put_put_same]
  · rw [State.lockedGood_empty _ hempty]
    simp only [hwhole, hkind, State.setLink, look_put_same, put_put_same]
    rfl
  · rw [State.lockedGood, State.offerSegment_overrun (by rw [hself]; exact hfull)]
    · rw [State.countLink, hself]
      simp only [State.setLink, put_put_same]
      rfl
    · rw [hself, hof, hwhole, hcontext, hedge]
      exact hg
  · rw [State.lockedGood, State.offerSegment_overrun_marks (f := f) (by rw [hself]; exact hfull) (hwhole.trans hkind)]
    · rw [State.countLink, hself, hof, State.setContext, State.setLink_links, look_put_same]
      simp only [State.setLink, put_put_same]
      rfl
    · rw [hself, hof, hcontext]
      exact hf
    · rw [hself, hof, hedge]
      exact hno

end Sys2Proof.Machine

/-! SUPPORT. OPEN, CLOSE and ABORT_REQUEST: how a frame is routed, how it ends, and which command brings it about (R12, R14,
R18, R126, R129, R132, R133). -/

namespace Sys2Proof.Machine

/-! ## The open-and-claim request (R14) -/

/-- A flip request to a record with no STAGED slot has no effect (R12). -/
theorem State.takeFlip_plain {s : State} {i : RecordNo} {p : Placement} (hp : s.placement? i = some p)
    (h : p.slotsIn .staged = []) : s.takeFlip i = s := by
  simp only [State.takeFlip, hp, (p.find?_eq_none .staged).mpr h, Option.isSome_none, Bool.false_eq_true, if_false]

theorem Placement.find?_isSome_iff {p : Placement} {ph : SlotPhase} :
    (p.find? ph).isSome = true ↔ p.slotsIn ph ≠ [] := by
  rw [Option.isSome_iff_ne_none, ne_eq, p.find?_eq_none]

/-- With no STAGED slot the request claims alone. -/
theorem State.openAndClaim_plain {s : State} {i : RecordNo} {p : Placement} (hp : s.placement? i = some p)
    (h : p.slotsIn .staged = []) (c : Key) : s.openAndClaim i c = s.setPlacement i { p with claim := some c } := by
  simp only [State.openAndClaim, State.takeFlip_plain hp h, hp]

/-- With a STAGED slot the flip comes first (R12, R14). -/
theorem State.openAndClaim_flip {s : State} {i : RecordNo} {p : Placement} (hp : s.placement? i = some p)
    (h : p.slotsIn .staged ≠ []) (c : Key) :
    s.openAndClaim i c =
      { s.setPlacement i { p.flip with claim := some c } with commitSet := put s.commitSet i true } := by
  have hflip := State.takeFlip_staged hp (Placement.find?_isSome_iff.mpr h)
  have hp' : (s.takeFlip i).placement? i = some p.flip := by
    rw [hflip]
    exact State.placement?_setPlacement_same s i p.flip
  simp only [State.openAndClaim, hp']
  rw [hflip]
  simp only [State.setPlacement, put_put_same, look_put_same]

/-! ## OPEN (R129) -/

section
variable {s : State} {l : LinkNo} {g : Segment} {c : Channel} (hc : (look s.links l).contextOf g = c)
include hc

/-- An OPEN whose key has no Key Index entry (R129). -/
theorem State.processOpen_unrouted
    (h : look (s.truncate l c).keyIndex (Key.place { link := l, channel := c }) = none) :
    s.processOpen l g =
      ((s.truncate l c).countLink l .unrouted).setContext l c (some (Frame.opened g .unrouted)) := by
  simp only [State.processOpen, hc, h, Option.bind_none]

variable {i : RecordNo} {p : Placement}
  (h : look (s.truncate l c).keyIndex (Key.place { link := l, channel := c }) = some i)
  (hp : (s.truncate l c).placement? i = some p)
include h hp

/-- An OPEN of another size than the record's next geometry is refused (R129). -/
theorem State.processOpen_refused (hg : p.nextGeometry ≠ some (g.fieldA, g.fieldB)) :
    s.processOpen l g =
      ((s.truncate l c).setPlacement i (p.heard.count .refused)).setContext l c (some (Frame.opened g .refused)) := by
  simp only [State.processOpen, hc, h, hp, Option.bind_some, Option.map_some]
  rw [if_neg hg]

/-- An OPEN of the record's next geometry claims it (R14, R129). -/
theorem State.processOpen_claims (hg : p.nextGeometry = some (g.fieldA, g.fieldB)) :
    s.processOpen l g =
      (((s.truncate l c).setPlacement i p.heard).openAndClaim i { link := l, channel := c }).setContext l c
        (some (Frame.opened g (if p.hold then .holding i else .placing i))) := by
  simp only [State.processOpen, hc, h, hp, Option.bind_some, Option.map_some]
  rw [if_pos hg]

end

theorem exec_openFrame_joins {s : State} {l : LinkNo} (ch : Channel) (a b : U16)
    (hl : (look s.links l).state = .locked) (hf : (look s.links l).fifo = []) :
    exec (.openFrame l (.joins ch a b)) s =
      .next ((s.setLink l { look s.links l with errorRun := 0 }).processOpen l
        { kind := .openFrame, channel := ch, fieldA := a, fieldB := b, payload := [] }) := by
  change Host.Outcome.next (s.headEvent l .openFrame (.joins ch a b)) = _
  rw [State.headEvent_joins _ ch a b hl hf, State.lockedGood_empty _ hf]

theorem exec_closeFrame_joins {s : State} {l : LinkNo} (ch : Channel) (a b : U16)
    (hl : (look s.links l).state = .locked) (hf : (look s.links l).fifo = []) :
    exec (.closeFrame l (.joins ch a b)) s =
      .next ((s.setLink l { look s.links l with errorRun := 0 }).processClose l
        { kind := .closeFrame, channel := ch, fieldA := a, fieldB := b, payload := [] }) := by
  change Host.Outcome.next (s.headEvent l .closeFrame (.joins ch a b)) = _
  rw [State.headEvent_joins _ ch a b hl hf, State.lockedGood_empty _ hf]

/-- Settles O47: by the Key Index entry, the size and the STAGED slot. -/
theorem anOpenRoutesTheFrame : Obligations.AnOpenRoutesTheFrame := by
  intro s l ch a b hl hf c key u k n opened context
  obtain ⟨t, ht⟩ : ∃ t, t = s.setLink l { look s.links l with errorRun := 0 } := ⟨_, rfl⟩
  have hself : look t.links l = { look s.links l with errorRun := 0 } := by rw [ht]; exact look_put_same _ _ _
  have hc : (look t.links l).contextOf
      { kind := .openFrame, channel := ch, fieldA := a, fieldB := b, payload := [] } = c := by rw [hself]; rfl
  have hu : u = t.truncate l c := by rw [ht]; rfl
  have hfifo : k.fifo = [] := by
    change (look u.links l).fifo = []
    rw [hu, State.fifo_truncate, hself]
    exact hf
  rw [exec_openFrame_joins ch a b hl hf, ← ht]
  clear_value u
  subst hu
  refine ⟨fun hnone => ?_, fun i p hi hp => ?_⟩
  · rw [State.processOpen_unrouted hc hnone]
    simp only [State.setContext, State.countLink, State.setLink, look_put_same, put_put_same]
    simp only [context, ← hfifo]
    rfl
  intro heard write claimed
  refine ⟨fun hg => ?_, fun hg hst => ?_, fun hg hst => ?_⟩
  · rw [State.processOpen_refused hc hi hp hg]
    simp only [context, ← hfifo]
    rfl
  · have hp' := State.placement?_setPlacement_same (t.truncate l c) i p.heard
    rw [State.processOpen_claims hc hi hp hg, State.openAndClaim_plain hp' hst]
    simp only [State.setContext, State.setLink, State.setPlacement, look_put_same, put_put_same]
    simp only [context, ← hfifo]
    rfl
  · have hp' := State.placement?_setPlacement_same (t.truncate l c) i p.heard
    rw [State.processOpen_claims hc hi hp hg, State.openAndClaim_flip hp' hst]
    simp only [State.setContext, State.setLink, State.setPlacement, look_put_same, put_put_same]
    simp only [context, ← hfifo]
    rfl

end Sys2Proof.Machine

/-! SUPPORT. CLOSE, the heads behind a granted LINE, and ABORT_REQUEST (R17, R18, R126, R132, R133). -/

namespace Sys2Proof.Machine

/-! ## CLOSE (R132) -/

/-- The counter that a CLOSE raises on the record a frame claims (R132). -/
def Frame.closeCounter (f : Frame) : RecordCounter := (f.outcome.map Prod.snd).getD .damaged

/-- A CLOSE of an IDLE context (R132). -/
theorem State.processClose_idle {s : State} {l : LinkNo} {g : Segment} {c : Channel}
    (hc : (look s.links l).contextOf g = c) (h : s.context? l c = none) : s.processClose l g = s.countLink l .noContext := by
  simp only [State.processClose, hc, h]

/-- A CLOSE of an open frame ends it with its counter (R132). -/
theorem State.processClose_open {s : State} {l : LinkNo} {g : Segment} {c : Channel}
    (hc : (look s.links l).contextOf g = c) {f : Frame} (h : s.context? l c = some f) :
    s.processClose l g = s.endFrame l c f f.closeCounter := by
  simp only [State.processClose, hc, h, Frame.closeCounter, Frame.outcome]
  cases hp : f.phase with
  | placing i => rw [State.endFrame_claimed (i := i) (by rw [hp]; rfl)]; rfl
  | holding i => rw [State.endFrame_claimed (i := i) (by rw [hp]; rfl)]; rfl
  | refused => rw [State.endFrame_unclaimed (by rw [hp]; rfl)]
  | unrouted => rw [State.endFrame_unclaimed (by rw [hp]; rfl)]

theorem Frame.closeCounter_placing {f : Frame} {i : RecordNo} (h : f.phase = .placing i) :
    f.closeCounter = if f.complete && !f.damaged then .placed else .damaged := by
  simp only [Frame.closeCounter, Frame.outcome, h]
  rfl

theorem Frame.closeCounter_holding {f : Frame} {i : RecordNo} (h : f.phase = .holding i) :
    f.closeCounter = if f.complete then .held else .damaged := by
  simp only [Frame.closeCounter, Frame.outcome, h]
  rfl

theorem Frame.complete_iff {f : Frame} : f.complete = true ↔ f.accepted = f.height.toNat := decide_eq_true_iff

/-- Settles O48: the frame ends with the counter of its outcome. -/
theorem aCloseCountsTheFrame : Obligations.ACloseCountsTheFrame := by
  intro s l ch a b hl hf k c n idle
  obtain ⟨t, ht⟩ : ∃ t, t = s.setLink l k := ⟨_, rfl⟩
  have hself : look t.links l = k := by rw [ht]; exact look_put_same _ _ _
  have hc : (look t.links l).contextOf
      { kind := .closeFrame, channel := ch, fieldA := a, fieldB := b, payload := [] } = c := by rw [hself]; rfl
  have hcontext : t.context? l c = s.context? l c := by
    rw [ht]
    exact State.context?_setLink (k := k) rfl l c
  have hrun := exec_closeFrame_joins ch a b hl hf
  rw [show s.setLink l { look s.links l with errorRun := 0 } = t from ht.symm] at hrun
  rw [hrun]
  refine ⟨fun hidle => ?_, fun f hopen => ?_⟩
  · rw [State.processClose_idle hc (hcontext.trans hidle), State.countLink, hself, ht]
    simp only [State.setLink, put_put_same]
    rfl
  rw [State.processClose_open hc (hcontext.trans hopen)]
  refine ⟨fun hnone => ?_, fun i p hi hp => ?_⟩
  · rw [State.endFrame_unclaimed hnone, State.setContext, hself, ht]
    simp only [State.setLink, put_put_same]
    rfl
  intro full ended
  have hp' : t.placement? i = some p := by rw [ht]; exact hp
  have hended (m : RecordCounter) : t.endFrame l c f m = ended (p.counters.count m) := by
    rw [State.endFrame_claimed hi, State.unclaim_some hp', State.setContext]
    simp only [State.setPlacement_links]
    rw [hself, ht]
    simp only [State.setLink, State.setPlacement, put_put_same]
    rfl
  rw [hended]
  refine ⟨fun hph hfull hclean => ?_, fun hph hbad => ?_, fun hph hfull => ?_, fun hph hshort => ?_⟩
  · rw [f.closeCounter_placing hph, Frame.complete_iff.mpr hfull, hclean]
    rfl
  · have hnot : ¬ (f.complete && !f.damaged) = true := fun h => by
      obtain ⟨hcomplete, hclean⟩ := Bool.and_eq_true_iff.mp h
      rcases hbad with hshort | hdamaged
      · exact hshort (Frame.complete_iff.mp hcomplete)
      · simp [hdamaged] at hclean
    rw [f.closeCounter_placing hph, if_neg hnot]
    rfl
  · rw [f.closeCounter_holding hph, if_pos (Frame.complete_iff.mpr hfull)]
    rfl
  · rw [f.closeCounter_holding hph, if_neg fun h => hshort (Frame.complete_iff.mp h)]
    rfl

/-! ## OPEN and CLOSE behind a granted LINE (R126) -/

/-- The command of a departure is that departure. -/
theorem exec_departureCommand (how : Departure) (s : State) :
    exec (departureCommand how) s = .next (s.takeDeparture how) := by cases how <;> rfl

/-- An element of a list that passes a test, behind such elements only, is in its longest such beginning. -/
theorem mem_takeWhile_of_getElem? {α : Type} {test : α → Bool} {xs : List α} {n : Nat} {x : α} (hx : xs[n]? = some x)
    (htest : test x = true) (hbelow : ∀ j, j < n → ∃ y, xs[j]? = some y ∧ test y = true) : x ∈ xs.takeWhile test := by
  induction xs generalizing n with
  | nil => cases hx
  | cons y ys ih =>
    cases n with
    | zero =>
      obtain rfl : y = x := Option.some.inj hx
      rw [List.takeWhile_cons_of_pos htest]
      exact List.mem_cons_self ..
    | succ n =>
      obtain ⟨z, hz, hztest⟩ := hbelow 0 (Nat.succ_pos n)
      obtain rfl : y = z := Option.some.inj hz
      rw [List.takeWhile_cons_of_pos hztest]
      exact List.mem_cons_of_mem _ (ih hx fun j hj => hbelow (j + 1) (Nat.succ_lt_succ hj))

/-- The departure that makes room for a LINE takes the OPENs and CLOSEs behind it (R126, R145). -/
theorem State.headEvent_behind {s : State} {how : Departure} {l : LinkNo} {n : Nat} (hanswers : s.answers how = true)
    (hgrant : ((s.countDeparture how).depart).granted = some l)
    (hbelow : ∀ j, j < n → ∃ g, (look ((s.countDeparture how).depart).links l).fifo.tail[j]? = some g ∧ g.kind ≠ .line)
    {g : Segment} (hg : (look ((s.countDeparture how).depart).links l).fifo.tail[n]? = some g) (hline : g.kind ≠ .line) :
    s.headEvent l g.kind (.behindGrantedLine how) = s.takeDeparture how := by
  have hmem : g ∈ ((s.countDeparture how).depart).behindGrant l :=
    mem_takeWhile_of_getElem? hg (decide_eq_true hline) fun j hj => by
      obtain ⟨e, he, hkind⟩ := hbelow j hj
      exact ⟨e, he, decide_eq_true hkind⟩
  have htakes : s.departureTakes how l g.kind = true := by
    obtain ⟨m, hm⟩ := Nat.exists_eq_succ_of_ne_zero (Nat.ne_zero_of_lt (State.waiting_doGrant hgrant))
    have hany : (((s.countDeparture how).depart).behindGrant l).any (fun e => decide (e.kind = g.kind)) = true :=
      List.any_eq_true.mpr ⟨g, hmem, decide_eq_true rfl⟩
    simp only [State.departureTakes, hanswers, hm, State.grantsTake, hgrant, hany, decide_true, Bool.and_self,
      Bool.true_or]
  simp only [State.headEvent, htakes, if_true]

/-- Settles O49: behind a granted LINE by the departure's own grant, on an empty FIFO by the arrival, and `takeHeads` by
its equations. -/
theorem headsAreTakenInTheSameEvent : Obligations.HeadsAreTakenInTheSameEvent := by
  refine ⟨fun s how l n hanswers => ?_, fun s l h bs g hl hf hh => ⟨fun hk => ?_, fun hk => ?_⟩,
    fun s l => ⟨rfl, fun g rest => ⟨fun hk => ?_, fun hk => ?_, fun hk => ?_⟩⟩⟩
  · intro t hgrant behind hbelow g hg
    have hevent (hline : g.kind ≠ .line) := State.headEvent_behind hanswers hgrant hbelow hg hline
    rw [exec_departureCommand]
    refine ⟨fun hk => ?_, fun hk => ?_⟩
    · rw [hk] at hevent
      exact congrArg Host.Outcome.next (hevent (by decide))
    · rw [hk] at hevent
      exact congrArg Host.Outcome.next (hevent (by decide))
  · have hlength : g.payloadLength (look s.links l).pixelSize = 0 := by simp only [Segment.payloadLength, hk]
    rw [exec_segmentArrival_locked_good hh (by rw [hlength]; exact Nat.zero_le _) hl, hlength, List.take_zero,
      State.lockedGood_empty _ hf, exec_openFrame_joins _ _ _ hl hf]
    simp only [hk]
  · have hlength : g.payloadLength (look s.links l).pixelSize = 0 := by simp only [Segment.payloadLength, hk]
    rw [exec_segmentArrival_locked_good hh (by rw [hlength]; exact Nat.zero_le _) hl, hlength, List.take_zero,
      State.lockedGood_empty _ hf, exec_closeFrame_joins _ _ _ hl hf]
    simp only [hk]
  · simp only [State.takeHeads, hk]; rfl
  · simp only [State.takeHeads, hk]
  · simp only [State.takeHeads, hk]

/-! ## ABORT_REQUEST (R18, R133) -/

section
variable {s : State} {l : LinkNo} {g : Segment} {rest : List Segment}

/-- A LINE at the head of the FIFO requests room for the bursts it would make (R139). -/
theorem State.roomRequest_line (hf : (look s.links l).fifo = g :: rest) (hk : g.kind = .line) :
    s.roomRequest l = some (s.lineBursts l g).length := by
  simp only [State.roomRequest, hf, hk, if_true]

/-- A LINE whose context is IDLE makes no bursts (R130). -/
theorem State.lineBursts_idle {c : Channel} (hc : (look s.links l).contextOf g = c) (h : s.context? l c = none) :
    s.lineBursts l g = [] := by
  simp only [State.lineBursts, hc, h]

end

section
variable {s : State} {i : RecordNo} {l : LinkNo} {c : Channel}

theorem exec_abortRequest_untravelled (h : ({ record := i, context := { link := l, channel := c } } : Abort) ∉ s.aborts) :
    exec (.abortRequest i l c) s = .next s := by
  change execAbortRequest i l c s = _
  simp only [execAbortRequest]
  rw [if_neg h]

variable (h : ({ record := i, context := { link := l, channel := c } } : Abort) ∈ s.aborts)
include h

theorem exec_abortRequest_claimed {f : Frame} (hf : s.context? l c = some f) (hi : f.claims i = true) :
    exec (.abortRequest i l c) s =
      .next (({ s with aborts := s.aborts.erase { record := i, context := { link := l, channel := c } } } : State).truncate
        l c).grantAll := by
  have hf' : ({ s with aborts := s.aborts.erase { record := i, context := { link := l, channel := c } } } : State).context?
      l c = some f := hf
  change execAbortRequest i l c s = _
  simp only [execAbortRequest]
  rw [if_pos h, hf']
  exact if_pos hi

theorem exec_abortRequest_unclaimed (hno : ¬ s.ClaimedAt l c i) :
    exec (.abortRequest i l c) s =
      .next { s with aborts := s.aborts.erase { record := i, context := { link := l, channel := c } } } := by
  have hsame : ({ s with aborts := s.aborts.erase { record := i, context := { link := l, channel := c } } } : State).context?
      l c = s.context? l c := rfl
  change execAbortRequest i l c s = _
  simp only [execAbortRequest]
  rw [if_pos h, hsame]
  cases hf : s.context? l c with
  | none => rfl
  | some f => exact if_neg fun hi => hno ⟨f, hf, hi⟩

end

/-- A frame claims a record exactly when it is PLACING or HOLDING with it. -/
theorem Frame.claims_iff_phase {f : Frame} {i : RecordNo} :
    f.claims i = true ↔ f.phase = .placing i ∨ f.phase = .holding i := by
  rw [Frame.claims_iff]
  cases f.phase <;> simp [FramePhase.record?]

/-- A truncation leaves the mode of every link. -/
theorem State.contextOf_truncate (s : State) (l m : LinkNo) (c : Channel) (g : Segment) :
    (look (s.truncate l c).links m).contextOf g = (look s.links m).contextOf g := by
  rw [State.links_truncate, look_put]
  split_ifs with h
  · subst h; rfl
  · subst h; rfl
  · rfl

/-- Settles O50: by whether the request travels, and whether the named frame claims the named record. -/
theorem anAbortTruncatesOnlyTheClaimingFrame : Obligations.AnAbortTruncatesOnlyTheClaimingFrame := by
  intro s i l c request taken
  refine ⟨exec_abortRequest_untravelled, fun hmem => ⟨fun f hf hph => ⟨?_, ?_, fun g rest hfifo hk hc => ?_⟩, fun hno => ?_⟩⟩
  · exact exec_abortRequest_claimed hmem hf (Frame.claims_iff_phase.mpr hph)
  · exact taken.fifo_truncate l l c
  · have hof : (look (taken.truncate l c).links l).contextOf g = c := (taken.contextOf_truncate l l c g).trans hc
    have hidle : (taken.truncate l c).context? l c = none := by
      rw [State.context?_truncate, if_pos ⟨rfl, rfl⟩]
    rw [State.roomRequest_line ((taken.fifo_truncate l l c).trans hfifo) hk, State.lineBursts_idle hof hidle]
    rfl
  · refine exec_abortRequest_unclaimed hmem fun ⟨f, hf, hi⟩ => ?_
    obtain ⟨hplacing, hholding⟩ := hno f hf
    exact (Frame.claims_iff_phase.mp hi).elim hplacing hholding

end Sys2Proof.Machine

/-! SUPPORT. The internal operations and the fences (R50 to R53, R61 to R64, R149, R153). -/

namespace Sys2Proof.Machine

/-! ## EXPIRE (R61, R62) -/

/-- The start check of an EXPIRE (R61). -/
theorem Placement.expires_iff {p : Placement} :
    p.expires = true ↔ p.drain = none ∧ p.interval ≠ none ∧ p.activity = .silent := by
  simp [Placement.expires, Option.isSome_iff_ne_none, and_assoc]

section
variable {s : State} {i : RecordNo} (hs : s.Starts .expirySet (.internal i))
include hs

/-- An EXPIRE of a FREE record is dropped. -/
theorem exec_expire_free (hp : s.placement? i = none) :
    exec .expire s = .next (s.begun .expirySet (.internal i)).dropped := by
  refine congrArg Host.Outcome.next ((State.startInternal_starts _ hs).trans ?_)
  simp only [State.begun_placement?, hp]

/-- An EXPIRE of a record that fails the check is dropped (R61). -/
theorem exec_expire_dropped {p : Placement} (hp : s.placement? i = some p) (hno : ¬ p.expires = true) :
    exec .expire s = .next (s.begun .expirySet (.internal i)).dropped := by
  refine congrArg Host.Outcome.next ((State.startInternal_starts _ hs).trans ?_)
  simp only [State.begun_placement?, hp]
  exact if_neg hno

theorem exec_expire_passes {p : Placement} (hp : s.placement? i = some p) (h : p.expires = true) :
    exec .expire s = .next ((s.begun .expirySet (.internal i)).expire i p) := by
  refine congrArg Host.Outcome.next ((State.startInternal_starts _ hs).trans ?_)
  simp only [State.begun_placement?, hp]
  exact if_pos h

/-- An EXPIRE that is dropped has left the Expiry set (R61). -/
theorem State.Starts.dropped_expiry :
    (s.begun .expirySet (.internal i)).dropped = { s with expirySet := put s.expirySet i false } := by
  simp [State.begun, State.dropped, hs.1]

/-- An EXPIRE that posts has left the Expiry set, and its notice is the newest response (R62). -/
theorem State.Starts.post_expiry (r : Response) :
    (s.begun .expirySet (.internal i)).post r =
      { s with expirySet := put s.expirySet i false, responses := s.responses ++ [r] } := by
  simp [State.begun, State.post, hs.1]

end

/-- Settles O38: by the start check, and then by retire-on-silence and the claim. -/
theorem expireDropsOrPostsSilent : Obligations.ExpireDropsOrPostsSilent := by
  intro s i hs taken notice
  refine ⟨fun hfree => ?_, fun p hp => ⟨fun hno => ?_, fun hlive hinterval hsilent => ?_⟩⟩
  · rw [exec_expire_free hs hfree, hs.dropped_expiry]
  · rw [exec_expire_dropped hs hp, hs.dropped_expiry]
    rw [Placement.expires_iff]
    rintro ⟨hlive, hinterval, hsilent⟩
    exact hno.elim (fun h => h hlive) (fun h => h.elim hinterval fun h => h hsilent)
  · intro posted drained
    rw [exec_expire_passes hs hp (Placement.expires_iff.mpr ⟨hlive, hinterval, hsilent⟩)]
    refine ⟨fun hstays => ?_, fun hretires hfree => ?_, fun c hretires hclaim => ?_⟩
    · simp only [State.expire, hstays, Bool.false_eq_true, if_false]
      rw [hs.post_expiry]
      simp only [posted, notice, hstays]
      rfl
    · simp only [State.expire, hretires, if_true, State.drain, hfree]
      simp [hfree, State.begun, State.post, State.setPlacement, drained, posted, notice, taken, hs.1, hretires, State.handleOf]
    · simp only [State.expire, hretires, if_true, State.drain, hclaim]
      simp [hclaim, State.begun, State.post, State.setPlacement, drained, posted, notice, taken, hs.1, hretires, State.handleOf]

/-! ## The completions of COMMIT and RELEASE (R7, R15) -/

/-- A COMMIT's completion with one slot as its target (R15, R35). -/
theorem State.completeCommit_one {s : State} {i : RecordNo} {p : Placement} {x : SlotLetter} {g : Slot}
    (hp : s.placement? i = some p) (hg : p.slot x = some g) :
    s.completeCommit i [x] =
      { s.setPlacement i (p.withSlot x none) with pool := emptyPool s.pool g.entries }.concluded
        (.amendApplied (s.handleOf i) p.label) := by
  simp only [State.completeCommit, hp, Placement.entriesOf, List.flatMap_cons, List.flatMap_nil, List.append_nil, hg,
    Option.map_some, Option.getD_some]
  rfl

/-- A RELEASE's completion (R7, R8, R35, R77). -/
theorem State.completeRelease_some {s : State} {i : RecordNo} {p : Placement} {cause : DrainCause}
    (hp : s.placement? i = some p) (hd : p.drain = some cause) (target : List SlotLetter) :
    s.completeRelease i target =
      { s with
        records := put s.records i { generation := (look s.records i).generation + 1, placement := none }
        pool := emptyPool s.pool (p.entriesOf target)
        commitSet := put s.commitSet i false
        expirySet := put s.expirySet i false }.concluded (.freed (s.handleOf i) cause p.label) := by
  simp only [State.completeRelease, hp, hd]
  rfl

/-! ## COMMIT and RELEASE start (R51, R63, R64) -/

/-- A fence set with a queued burst is waited for (R50). -/
theorem State.startFence_waits {s : State} {op : FenceOperation} (h : awaiting op.awaited = true) :
    s.startFence op = { s with engine := .fence op } := if_pos h

/-- An empty fence set completes at once (R50). -/
theorem State.startFence_completes {s : State} {op : FenceOperation} (h : awaiting op.awaited = false) :
    s.startFence op = s.completeFence op := if_neg (by rw [h]; decide)

/-- The marks of a fence set await a burst exactly when one is queued (R50). -/
theorem awaiting_map {test : Burst → Bool} {bs : List Burst} :
    awaiting (bs.map test) = true ↔ ∃ b ∈ bs, test b = true := by
  simp [awaiting]

theorem awaiting_map_eq_false {test : Burst → Bool} {bs : List Burst} :
    awaiting (bs.map test) = false ↔ ∀ b ∈ bs, ¬ test b = true := by
  rw [← Bool.not_eq_true, awaiting_map]
  simp only [not_exists, not_and]

theorem SlotLetter.mem_pair (x : SlotLetter) : x ∈ [SlotLetter.a, SlotLetter.b] := by cases x <;> decide

/-- A slot is occupied exactly when it is not EMPTY. -/
theorem Placement.mem_occupiedSlots {p : Placement} {x : SlotLetter} : x ∈ p.occupiedSlots ↔ p.slot x ≠ none := by
  rw [Placement.occupiedSlots, List.mem_filter, and_iff_right x.mem_pair, Option.isSome_iff_ne_none]

theorem Placement.mem_slotsIn {p : Placement} {x : SlotLetter} {ph : SlotPhase} :
    x ∈ p.slotsIn ph ↔ p.phase? x = some ph := by
  rw [Placement.slotsIn, List.mem_filter, and_iff_right x.mem_pair, decide_eq_true_eq]

section
variable {s : State} {i : RecordNo} {p : Placement}

theorem exec_commit_starts (hs : s.Starts .commitSet (.internal i)) (hp : s.placement? i = some p) :
    exec .commit s = .next ((s.begun .commitSet (.internal i)).startFence
      { source := .commitSet, request := .commit i, awaited := s.tagged i (p.slotsIn .superseded),
        target := p.slotsIn .superseded }) := by
  refine congrArg Host.Outcome.next ((State.startInternal_starts _ hs).trans ?_)
  simp only [State.begun_placement?, hp, State.tagged, State.begun_bursts]

theorem exec_release_starts (hs : s.Starts .releaseSet (.internal i)) (hp : s.placement? i = some p) :
    exec .release s = .next ((s.begun .releaseSet (.internal i)).startFence
      { source := .releaseSet, request := .release i, awaited := s.tagged i p.occupiedSlots,
        target := p.occupiedSlots }) := by
  refine congrArg Host.Outcome.next ((State.startInternal_starts _ hs).trans ?_)
  simp only [State.begun_placement?, hp, State.tagged, State.begun_bursts]

end

/-- Settles O39: by whether a burst of the fence set is queued. -/
theorem commitAndReleaseFenceOrComplete : Obligations.CommitAndReleaseFenceOrComplete := by
  refine ⟨fun s i p x g hs hp hx hg => ?_, fun s i p cause hs hp hd => ?_⟩
  · intro taken mine
    have htagged : s.tagged i [x] = s.bursts.map fun b => decide (mine b) := by
      refine List.map_congr_left fun b _ => ?_
      simp [mine, Bool.decide_and]
    rw [exec_commit_starts hs hp, hx, htagged]
    refine ⟨fun hwaits => ?_, fun hnone => ?_⟩
    · rw [State.startFence_waits (awaiting_map.mpr (hwaits.imp fun b => And.imp_right decide_eq_true))]
      rfl
    · have hempty := awaiting_map_eq_false.mpr fun b hb => mt of_decide_eq_true (hnone b hb)
      have hp' : (s.begun .commitSet (.internal i)).placement? i = some p := hp
      rw [State.startFence_completes hempty]
      simp only [State.completeFence]
      rw [State.completeCommit_one hp' hg]
      simp [State.begun, State.concluded, State.setPlacement, taken, hs.1, State.handleOf]
  · intro taken mine
    have htagged : s.tagged i p.occupiedSlots = s.bursts.map fun b => decide (mine b) := by
      refine List.map_congr_left fun b _ => ?_
      simp [mine, Bool.decide_and, Placement.mem_occupiedSlots]
    rw [exec_release_starts hs hp, htagged]
    refine ⟨fun hwaits => ?_, fun hnone => ?_⟩
    · rw [State.startFence_waits (awaiting_map.mpr (hwaits.imp fun b => And.imp_right decide_eq_true))]
      rfl
    · have hempty := awaiting_map_eq_false.mpr fun b hb => mt of_decide_eq_true (hnone b hb)
      have hp' : (s.begun .releaseSet (.internal i)).placement? i = some p := hp
      rw [State.startFence_completes hempty]
      simp only [State.completeFence]
      rw [State.completeRelease_some hp' hd]
      simp [State.begun, State.concluded, taken, hs.1, State.handleOf]

end Sys2Proof.Machine

/-! SUPPORT. Departures from the Burst Queue: what they count, what they report to a fence, and the outputs of the
frame-store port (R50, R52, R148 to R153, R191). -/

namespace Sys2Proof.Machine

/-! ## The burst leaves and the next is issued (R148, R149) -/

theorem State.counted_eq (s : State) (how : Departure) : s.countDeparture how = s.counted how := by cases how <;> rfl

@[simp] theorem State.counted_engine (s : State) (how : Departure) : (s.counted how).engine = s.engine := by
  cases how <;> rfl

@[simp] theorem State.counted_records (s : State) (how : Departure) : (s.counted how).records = s.records := by
  cases how <;> rfl

@[simp] theorem State.counted_pool (s : State) (how : Departure) : (s.counted how).pool = s.pool := by cases how <;> rfl

@[simp] theorem State.counted_commitSet (s : State) (how : Departure) : (s.counted how).commitSet = s.commitSet := by
  cases how <;> rfl

@[simp] theorem State.counted_expirySet (s : State) (how : Departure) : (s.counted how).expirySet = s.expirySet := by
  cases how <;> rfl

/-- With an empty queue no burst is outstanding (R148). -/
theorem State.issueNext_nil {s : State} (h : s.bursts = []) : s.issueNext = { s with timer := none } := by
  unfold State.issueNext
  split
  · rfl
  · next hb => rw [h] at hb; cases hb

/-- The port issues the burst that is now the head (R148, R149). -/
theorem State.issueNext_cons {s : State} (h : s.bursts ≠ []) : s.issueNext = s.issue := by
  unfold State.issueNext
  split
  · next hb => exact absurd hb h
  · rfl

theorem State.issueNext_frame (s : State) :
    s.issueNext = { s with issueNumber := s.issueNext.issueNumber, timer := s.issueNext.timer } := by
  by_cases hb : s.bursts = []
  · rw [State.issueNext_nil hb]
  · rw [State.issueNext_cons hb]; rfl

/-- The head leaves, and the next burst is issued. -/
theorem State.departed_eq (s : State) : s.departed = ({ s with bursts := s.bursts.tail } : State).issueNext := by
  cases hb : s.bursts.tail <;> simp [State.departed, State.issueNext, State.issue, hb]

theorem State.departed_frame (s : State) :
    s.departed = { s with
      bursts := s.bursts.tail, issueNumber := s.departed.issueNumber, timer := s.departed.timer } := by
  rw [State.departed_eq]
  exact State.issueNext_frame _

theorem State.departed_engine (s : State) : s.departed.engine = s.engine := by rw [State.departed_frame]

theorem State.departed_records (s : State) : s.departed.records = s.records := by rw [State.departed_frame]

theorem State.departed_pool (s : State) : s.departed.pool = s.pool := by rw [State.departed_frame]

theorem State.departed_commitSet (s : State) : s.departed.commitSet = s.commitSet := by rw [State.departed_frame]

theorem State.departed_expirySet (s : State) : s.departed.expirySet = s.expirySet := by rw [State.departed_frame]

/-- The issue of the next burst and a write of the engine do not meet. -/
theorem State.issueNext_withEngine (s : State) (e : Engine) :
    ({ s with engine := e } : State).issueNext = { s.issueNext with engine := e } := by
  by_cases hb : s.bursts = []
  · rw [State.issueNext_nil hb, State.issueNext_nil (s := { s with engine := e }) hb]
  · rw [State.issueNext_cons hb, State.issueNext_cons (s := { s with engine := e }) hb]; rfl

/-- The issue of the next burst and the completion of a fence do not meet. -/
theorem State.issueNext_completeFence (s : State) (op : FenceOperation) :
    (s.completeFence op).issueNext = s.issueNext.completeFence op := by
  obtain ⟨source, request, awaited, target⟩ := op
  have hsplit : (∃ r, request = .sync r) ∨ (∃ i, request = .commit i) ∨ ∃ i, request = .release i := by
    cases request <;> simp
  rcases hsplit with ⟨r, rfl⟩ | ⟨i, rfl⟩ | ⟨i, rfl⟩
  · cases hb : s.bursts <;>
      simp only [State.completeFence, State.finish, State.post, State.issueNext, State.issue, hb]
  · cases hb : s.bursts <;> cases hp : s.placement? i <;>
      simp only [State.completeFence, State.completeCommit, State.placement?, State.issueNext, State.issue] at hp ⊢ <;>
      simp only [hp, hb, State.post, State.dropped, State.setPlacement] <;> rfl
  · cases hb : s.bursts <;> cases hp : s.placement? i with
    | none =>
      simp only [State.completeFence, State.completeRelease, State.placement?, State.issueNext, State.issue] at hp ⊢
      simp only [hp, hb, State.dropped]
    | some p =>
      cases hd : p.drain <;>
        simp only [State.completeFence, State.completeRelease, State.placement?, State.issueNext, State.issue] at hp ⊢ <;>
        simp only [hp, hb, hd, State.post, State.dropped, State.handleOf]

section
variable {s : State}

/-- Out of a fence the report of a departure has no effect (R153). -/
theorem State.reportDeparture_plain {s : State} (h : ∀ op, s.engine ≠ .fence op) : s.reportDeparture = s := by
  unfold State.reportDeparture
  split
  · next op he => exact absurd he (h op)
  · rfl
  · rfl

/-- In a fence it takes one mark off, or ends the fence (R50). -/
theorem State.reportDeparture_fence {s : State} {op : FenceOperation} (he : s.engine = .fence op) :
    s.reportDeparture = if awaiting op.awaited.tail then { s with engine := .fence { op with awaited := op.awaited.tail } }
      else s.completeFence op := by
  unfold State.reportDeparture
  split
  · next op' he' => rw [he] at he'; cases he'; rfl
  · next op' he' => rw [he] at he'; cases he'
  · next he' => rw [he] at he'; cases he'

/-- Out of a fence a departure is that of the burst alone (R153). -/
theorem State.depart_plain (h : ∀ op, s.engine ≠ .fence op) : s.depart = s.departed := by
  rw [State.departed_eq, State.depart, State.reportDeparture_plain (s := { s with bursts := s.bursts.tail }) h]

variable {op : FenceOperation} (he : s.engine = .fence op)
include he

/-- A departure that leaves a burst of the fence set takes one mark off the fence (R50). -/
theorem State.depart_waits (h : awaiting op.awaited.tail = true) :
    s.depart = { s.departed with engine := .fence { op with awaited := op.awaited.tail } } := by
  rw [State.departed_eq, State.depart, State.reportDeparture_fence (s := { s with bursts := s.bursts.tail }) he, if_pos h]
  exact State.issueNext_withEngine { s with bursts := s.bursts.tail } (.fence { op with awaited := op.awaited.tail })

/-- A departure that empties the fence set completes the operation (R50, R53). -/
theorem State.depart_ends (h : awaiting op.awaited.tail = false) : s.depart = s.departed.completeFence op := by
  rw [State.departed_eq, ← State.issueNext_completeFence, State.depart,
    State.reportDeparture_fence (s := { s with bursts := s.bursts.tail }) he, if_neg (by rw [h]; decide)]

end

/-! ## The commands of a departure -/

/-- An answer to the outstanding burst ends its stay (R145, R149). -/
theorem exec_departureCommand_answers {s : State} {how : Departure} (h : s.answers how = true) :
    exec (departureCommand how) s = .next (s.counted how).depart.grantAll := by
  rw [exec_departureCommand, State.takeDeparture, if_pos h, State.counted_eq]

/-- Any other is ignored (R152). -/
theorem exec_departureCommand_ignored {s : State} {how : Departure} (h : ¬ s.answers how = true) :
    exec (departureCommand how) s = .next s := by
  rw [exec_departureCommand, State.takeDeparture, if_neg h]

/-- A departure that ends the fence in flight is the completion of a request of its kind. -/
theorem State.endFence_ends {s : State} {op : FenceOperation} (he : s.engine = .fence op)
    {kind : FenceRequest → Bool} (hk : kind op.request = true) (h : awaiting op.awaited.tail = false) (how : Departure) :
    s.endFence kind how = s.takeDeparture how := by
  simp only [State.endFence, State.fenceEnds, he, hk, h]
  rfl

/-- Where the fence goes on no completion is due. -/
theorem State.endFence_waits {s : State} {op : FenceOperation} (he : s.engine = .fence op)
    (kind : FenceRequest → Bool) (h : awaiting op.awaited.tail = true) (how : Departure) : s.endFence kind how = s := by
  simp only [State.endFence, State.fenceEnds, he, h, Bool.not_true, Bool.and_false, Bool.false_eq_true, if_false]

/-- Settles O40: by whether a burst of the fence set is left. -/
theorem aFenceWaitsForItsLastBurst : Obligations.AFenceWaitsForItsLastBurst := by
  intro s op how he hanswers
  refine ⟨fun hwaits => ⟨?_, ?_, ?_, ?_⟩, fun hends => ⟨fun r hr => ?_, fun i hr => ?_, fun i hr => ?_⟩⟩
  · rw [exec_departureCommand_answers hanswers, State.depart_waits ((s.counted_engine how).trans he) hwaits]
  · exact congrArg Host.Outcome.next (State.endFence_waits he FenceRequest.isSync hwaits how)
  · exact congrArg Host.Outcome.next (State.endFence_waits he FenceRequest.isCommit hwaits how)
  · exact congrArg Host.Outcome.next (State.endFence_waits he FenceRequest.isRelease hwaits how)
  · rw [exec_departureCommand]
    exact congrArg Host.Outcome.next (State.endFence_ends (kind := FenceRequest.isSync) he (by rw [hr]; rfl) hends how)
  · rw [exec_departureCommand]
    exact congrArg Host.Outcome.next (State.endFence_ends (kind := FenceRequest.isCommit) he (by rw [hr]; rfl) hends how)
  · rw [exec_departureCommand]
    exact congrArg Host.Outcome.next (State.endFence_ends (kind := FenceRequest.isRelease) he (by rw [hr]; rfl) hends how)

/-- Settles O41: the departure that empties the fence set, with the completion of each kind. -/
theorem fencesEndWithTheirEffects : Obligations.FencesEndWithTheirEffects := by
  have hends {s : State} {op : FenceOperation} {how : Departure} (he : s.engine = .fence op)
      {kind : FenceRequest → Bool} (hk : kind op.request = true) (hanswers : s.answers how = true)
      (h : awaiting op.awaited.tail = false) :
      s.endFence kind how = ((s.counted how).departed.completeFence op).grantAll := by
    rw [State.endFence_ends he hk h, State.takeDeparture, if_pos hanswers, State.counted_eq,
      State.depart_ends ((s.counted_engine how).trans he) h]
  refine ⟨fun s op r how he hr hc hanswers h => ?_, fun s op i p x g how he hr ht hp hg hanswers h => ?_,
    fun s op i p cause how he hr ht hp hd hanswers h => ?_⟩
  · refine congrArg Host.Outcome.next ((hends he (kind := FenceRequest.isSync) (by rw [hr]; rfl) hanswers h).trans ?_)
    simp only [State.completeFence, hr]
    rw [State.finish_eq_concluded, hc]
    rfl
  · refine congrArg Host.Outcome.next ((hends he (kind := FenceRequest.isCommit) (by rw [hr]; rfl) hanswers h).trans ?_)
    obtain ⟨t, ht'⟩ : ∃ t, t = (s.counted how).departed := ⟨_, rfl⟩
    have hrecords : t.records = s.records := by rw [ht', State.departed_records, State.counted_records]
    have hpool : t.pool = s.pool := by rw [ht', State.departed_pool, State.counted_pool]
    rw [← ht']
    simp only [State.completeFence, hr, ht]
    rw [State.completeCommit_one ((State.placement?_congr hrecords i).trans hp) hg]
    simp only [State.concluded, State.setPlacement, State.handleOf, hrecords, hpool]
  · refine congrArg Host.Outcome.next ((hends he (kind := FenceRequest.isRelease) (by rw [hr]; rfl) hanswers h).trans ?_)
    obtain ⟨t, ht'⟩ : ∃ t, t = (s.counted how).departed := ⟨_, rfl⟩
    have hrecords : t.records = s.records := by rw [ht', State.departed_records, State.counted_records]
    have hpool : t.pool = s.pool := by rw [ht', State.departed_pool, State.counted_pool]
    have hcommit : t.commitSet = s.commitSet := by rw [ht', State.departed_commitSet, State.counted_commitSet]
    have hexpiry : t.expirySet = s.expirySet := by rw [ht', State.departed_expirySet, State.counted_expirySet]
    rw [← ht']
    simp only [State.completeFence, hr, ht]
    rw [State.completeRelease_some ((State.placement?_congr hrecords i).trans hp) hd]
    simp only [State.concluded, State.handleOf, hrecords, hpool, hcommit, hexpiry]

/-! ## The frame-store port (R148 to R152, R191) -/

/-- The beats pair the bytes of the data, the byte at the lower address in the upper half (R191). -/
theorem beatsOf_spec (data : List Byte) :
    (beatsOf data).length = data.length / 2 ∧
      ∀ (n : Nat) (upper lower : Byte), data[2 * n]? = some upper → data[2 * n + 1]? = some lower →
        (beatsOf data)[n]? = some (upper ++ lower) := by
  induction data using beatsOf.induct with
  | case1 hi lo rest ih =>
    obtain ⟨hlength, hbeat⟩ := ih
    refine ⟨by simp only [beatsOf, List.length_cons, hlength]; omega, fun n upper lower hu hl => ?_⟩
    cases n with
    | zero =>
      obtain rfl : hi = upper := Option.some.inj hu
      obtain rfl : lo = lower := Option.some.inj hl
      rfl
    | succ n => exact hbeat n upper lower hu hl
  | case2 data hshort =>
    have hlength : data.length ≤ 1 := by
      match data with
      | [] => exact Nat.zero_le _
      | [_] => exact Nat.le_refl _
      | hi :: lo :: rest => exact absurd rfl (hshort hi lo rest)
    have hnil : beatsOf data = [] := by
      match data with
      | [] => rfl
      | [_] => rfl
      | hi :: lo :: rest => exact absurd rfl (hshort hi lo rest)
    refine ⟨by rw [hnil]; simp only [List.length_nil]; omega, fun n upper lower _ hl => ?_⟩
    obtain ⟨hlt, _⟩ := List.getElem?_eq_some_iff.mp hl
    omega

/-- Settles O54: the outputs by the timer, and the answers by whether they are the outstanding burst's. -/
theorem answersEndTheOutstandingBurst : Obligations.AnswersEndTheOutstandingBurst := by
  refine ⟨fun s => ⟨fun hno => ?_, fun b rest hout hb => ?_⟩, fun s hout hfence => ?_, fun s n => ⟨fun hno => ?_, fun hno => ?_⟩⟩
  · have htimer : s.timer = none := Option.isNone_iff_eq_none.mp (Option.isSome_eq_false_iff.mp hno)
    simp only [State.framestoreOutput, htimer]
  · obtain ⟨t, htimer⟩ := Option.isSome_iff_exists.mp hout
    refine ⟨beatsOf b.data, ?_, beatsOf_spec b.data⟩
    simp only [State.framestoreOutput, htimer, hb]
  · have hrun (how : Departure) (h : s.answers how = true) :
        exec (departureCommand how) s = .next (s.counted how).departed.grantAll := by
      rw [exec_departureCommand_answers h, State.depart_plain]
      rw [State.counted_engine]
      exact hfence
    have hown : (s.outstanding && decide (s.issueNumber = s.issueNumber)) = true := by simp [hout]
    exact ⟨hrun (.acknowledged s.issueNumber) hown, hrun (.refused s.issueNumber) hown, hrun .timedOut hout⟩
  · have hanswer : ¬ (s.outstanding && decide (n = s.issueNumber)) = true := by
      rw [Bool.and_eq_true_iff, decide_eq_true_eq]
      rintro ⟨hout, hn⟩
      exact hno.elim (fun h => by rw [h] at hout; cases hout) fun h => h hn
    exact ⟨exec_departureCommand_ignored (how := .acknowledged n) hanswer,
      exec_departureCommand_ignored (how := .refused n) hanswer⟩
  · exact exec_departureCommand_ignored (how := .timedOut) (by rw [State.answers, hno]; decide)

end Sys2Proof.Machine

/-! SUPPORT. Lines: the checks against the frame, the bursts of an accepted line, and the link that is granted (R130, R131,
R139, R141, R144, R145). -/

namespace Sys2Proof.Machine

/-! ## The destinations that take a line (R131, R141) -/

/-- The only slot in a state is the one found there. -/
theorem Placement.find?_of_slotsIn {p : Placement} {ph : SlotPhase} {x : SlotLetter} {v : Slot}
    (hx : p.slotsIn ph = [x]) (hv : p.slot x = some v) : p.find? ph = some (x, v) := by
  have hx' : p.phase? x = some ph := Placement.mem_slotsIn.mp (by rw [hx]; exact List.mem_singleton_self x)
  have hphase : v.phase = ph := by
    rw [Placement.phase?, hv] at hx'
    exact Option.some.inj hx'
  cases x with
  | a =>
    have ha : p.slotA = some v := hv
    cases hb : p.slotB <;> simp only [Placement.find?, ha, hb, hphase, if_true]
  | b =>
    have hb : p.slotB = some v := hv
    have hother : ¬ p.phase? .a = some ph := fun h => by
      have hmem : SlotLetter.a ∈ p.slotsIn ph := Placement.mem_slotsIn.mpr h
      rw [hx] at hmem
      cases List.mem_singleton.mp hmem
    cases ha : p.slotA with
    | none => simp only [Placement.find?, ha, hb, hphase, if_true]
    | some w =>
      have hw : ¬ w.phase = ph := fun h => hother (by rw [Placement.phase?, Placement.slot, ha, ← h]; rfl)
      simp only [Placement.find?, ha, hb, hphase, if_true, if_neg hw]

/-- An entry as a taker of line `n` through slot `x`, where it is OCCUPIED, takes the line and lies on a defined plane. -/
def State.takerOf (s : State) (x : SlotLetter) (n : Nat) (e : EntryNo) : Option (SlotLetter × Entry × Plane) :=
  (look s.pool e).bind fun en => if en.takesLine n then (look s.planes en.plane).map fun p => (x, en, p) else none

/-- An entry is OCCUPIED and takes line `n`. -/
def State.takesAt (s : State) (n : Nat) (e : EntryNo) : Bool := ((look s.pool e).map fun en => en.takesLine n).getD false

section
variable {s : State} {i : RecordNo} {p : Placement} {x : SlotLetter} {v : Slot} (hp : s.placement? i = some p)
  (hx : p.slotsIn .active = [x]) (hv : p.slot x = some v)
include hp hx hv

/-- The takers of a line are those of the ACTIVE slot's list, in its order (R141). -/
theorem State.takers_eq (n : Nat) : s.takers i n = v.entries.filterMap (s.takerOf x n) := by
  simp only [State.takers, hp, Option.bind_some, Placement.find?_of_slotsIn hx hv]
  rfl

variable (hfit : ∀ e ∈ v.entries, ∃ en pl, look s.pool e = some en ∧ look s.planes en.plane = some pl)
include hfit

/-- There are as many as there are entries that take the line. -/
theorem State.length_takers (n : Nat) : (s.takers i n).length = v.entries.countP (s.takesAt n) := by
  rw [State.takers_eq hp hx hv]
  clear hv
  generalize v.entries = es at hfit ⊢
  induction es with
  | nil => rfl
  | cons e es ih =>
    obtain ⟨en, pl, hen, hpl⟩ := hfit e (List.mem_cons_self ..)
    have ih := ih fun e' he' => hfit e' (List.mem_cons_of_mem _ he')
    by_cases ht : en.takesLine n = true
    · have htaker : s.takerOf x n e = some (x, en, pl) := by simp [State.takerOf, hen, hpl, ht]
      have htakes : s.takesAt n e = true := by simp [State.takesAt, hen, ht]
      rw [List.filterMap_cons_some htaker, List.length_cons, List.countP_cons_of_pos htakes, ih]
    · have htaker : s.takerOf x n e = none := by simp [State.takerOf, hen, ht]
      have htakes : ¬ s.takesAt n e = true := by simp [State.takesAt, hen, ht]
      rw [List.filterMap_cons_none htaker, List.countP_cons_of_neg htakes, ih]

/-- Each taker makes its burst (R140 to R142). -/
theorem State.forall₂_takers (l : LinkNo) (n : Nat) (payload : List Byte) :
    List.Forall₂ (fun e b => ∃ en pl, look s.pool e = some en ∧ look s.planes en.plane = some pl ∧
        b = burstOf i l n payload (x, en, pl))
      (v.entries.filter (s.takesAt n)) ((s.takers i n).map (burstOf i l n payload)) := by
  rw [State.takers_eq hp hx hv]
  clear hv
  generalize v.entries = es at hfit ⊢
  induction es with
  | nil => exact .nil
  | cons e es ih =>
    obtain ⟨en, pl, hen, hpl⟩ := hfit e (List.mem_cons_self ..)
    have ih := ih fun e' he' => hfit e' (List.mem_cons_of_mem _ he')
    by_cases ht : en.takesLine n = true
    · have htaker : s.takerOf x n e = some (x, en, pl) := by simp [State.takerOf, hen, hpl, ht]
      have htakes : s.takesAt n e = true := by simp [State.takesAt, hen, ht]
      rw [List.filterMap_cons_some htaker, List.filter_cons_of_pos htakes, List.map_cons]
      exact .cons ⟨en, pl, hen, hpl, rfl⟩ ih
    · have htaker : s.takerOf x n e = none := by simp [State.takerOf, hen, ht]
      have htakes : ¬ s.takesAt n e = true := by simp [State.takesAt, hen, ht]
      rw [List.filterMap_cons_none htaker, List.filter_cons_of_neg htakes]
      exact ih

end

/-! ## The bursts of a line (R131, R141) -/

section
variable {s : State} {l : LinkNo} {g : Segment} {c : Channel} {f : Frame} (hc : (look s.links l).contextOf g = c)
  (hf : s.context? l c = some f)
include hc hf

/-- A PLACING frame's line that passes its checks makes a burst for each taker (R141). -/
theorem State.lineBursts_placing {i : RecordNo} (hfault : f.lineFault g = none) (hph : f.phase = .placing i) :
    s.lineBursts l g = (s.takers i g.fieldA.toNat).map (burstOf i l g.fieldA.toNat g.payload) := by
  simp only [State.lineBursts, hc, hf, hfault, hph]

/-- A line that fails a check, or of a frame that is not PLACING, makes none (R131). -/
theorem State.lineBursts_none (h : f.lineFault g ≠ none ∨ ∀ i, f.phase ≠ .placing i) : s.lineBursts l g = [] := by
  cases hfault : f.lineFault g with
  | some n => simp only [State.lineBursts, hc, hf, hfault]
  | none =>
    cases hph : f.phase with
    | placing i => exact absurd hph ((h.resolve_left (not_not.mpr hfault)) i)
    | holding i => simp only [State.lineBursts, hc, hf, hfault, hph]
    | refused => simp only [State.lineBursts, hc, hf, hfault, hph]
    | unrouted => simp only [State.lineBursts, hc, hf, hfault, hph]

end

/-- Bursts that join a queue that is not empty, or none that join, issue nothing (R148). -/
theorem State.joinBursts_behind {s : State} {bs : List Burst} (h : s.bursts ≠ [] ∨ bs = []) :
    s.joinBursts bs = { s with bursts := s.bursts ++ bs } := by
  have hno : ¬ (s.bursts.isEmpty && !bs.isEmpty) = true := by
    rw [Bool.and_eq_true_iff, List.isEmpty_iff, Bool.not_eq_true', List.isEmpty_eq_false_iff]
    exact fun ⟨hnil, hne⟩ => h.elim (fun h => h hnil) hne
  exact if_neg hno

/-- Bursts that join the empty queue issue the first of them (R148). -/
theorem State.joinBursts_empty {s : State} {bs : List Burst} (h : s.bursts = []) (hbs : bs ≠ []) :
    s.joinBursts bs = { s with bursts := bs, issueNumber := s.issueNumber + 1, timer := some s.ackTimeout } := by
  have hyes : (s.bursts.isEmpty && !bs.isEmpty) = true := by
    rw [Bool.and_eq_true_iff, List.isEmpty_iff, Bool.not_eq_true', List.isEmpty_eq_false_iff]
    exact ⟨h, hbs⟩
  simp only [State.joinBursts]
  rw [if_pos hyes, h]
  rfl

/-- Settles O53: the bursts by the takers, and the queue by whether it was empty. -/
theorem anAcceptedLineMakesItsBursts : Obligations.AnAcceptedLineMakesItsBursts := by
  refine ⟨fun s l g f hf hfault => ⟨fun hph => ?_, fun i p x v hph hp hx hv hfit => ?_⟩,
    fun s bs => ⟨State.joinBursts_behind, State.joinBursts_empty⟩⟩
  · refine State.lineBursts_none rfl hf (.inr fun i hi => ?_)
    rw [hi] at hph
    rcases hph with h | h | ⟨j, h⟩ <;> cases h
  · intro n made takes
    have htakes : takes = s.takesAt n := by
      funext e
      simp only [takes, State.takesAt]
      cases look s.pool e <;> rfl
    rw [State.lineBursts_placing rfl hf hfault hph, htakes]
    exact State.forall₂_takers hp hx hv hfit l n g.payload

/-! ## The link in turn (R144, R145) -/

/-- The link in turn is the first from the one after the last granted that holds a request (R145). -/
theorem State.linkInTurn_eq_some {s : State} {l : LinkNo} :
    s.linkInTurn = some l ↔ ∃ n, n < 6 ∧ l.val = (s.lastGranted.val + 1 + n) % 6 ∧ (s.roomRequest l).isSome = true ∧
      ∀ m (l' : LinkNo), m < n → l'.val = (s.lastGranted.val + 1 + m) % 6 → s.roomRequest l' = none := by
  have hlength : s.turn.length = 6 := by simp [State.turn]
  unfold State.linkInTurn
  rw [List.find?_eq_some_iff_getElem]
  constructor
  · rintro ⟨hsome, n, hn, hl, hbelow⟩
    refine ⟨n, hlength ▸ hn, hl ▸ s.turn_val n hn, hsome, fun m l' hm hl' => ?_⟩
    have hm' : m < s.turn.length := hm.trans hn
    have hat : s.turn[m] = l' := Fin.ext ((s.turn_val m hm').trans hl'.symm)
    have hnone := hbelow m hm
    rw [hat] at hnone
    simpa using hnone
  · rintro ⟨n, hn, hl, hsome, hbelow⟩
    have hn' : n < s.turn.length := hlength.symm ▸ hn
    refine ⟨hsome, n, hn', Fin.ext ((s.turn_val n hn').trans hl.symm), fun m hm => ?_⟩
    simp [hbelow m _ hm (s.turn_val m (hm.trans hn'))]

/-- The link granted is the one in turn, when what it asks for is free (R145). -/
theorem State.granted_eq_some {s : State} {l : LinkNo} :
    s.granted = some l ↔ s.linkInTurn = some l ∧ (s.roomRequest l).getD 0 ≤ s.burstRoom := by
  rw [State.granted, Option.filter_eq_some_iff, decide_eq_true_eq]

/-- A link with no LINE at the head of its FIFO holds no request (R139). -/
theorem State.roomRequest_none {s : State} {l : LinkNo} (h : ∀ g ∈ (look s.links l).fifo.head?, g.kind ≠ .line) :
    s.roomRequest l = none := by
  cases hf : (look s.links l).fifo with
  | nil => simp only [State.roomRequest, hf]
  | cons g rest =>
    rw [hf] at h
    simp only [State.roomRequest, hf, if_neg (h g rfl)]

/-- Settles O51: the request by the line at the head, the grant by the turn. -/
theorem grantsGoToTheLinkInTurn : Obligations.GrantsGoToTheLinkInTurn := by
  refine ⟨fun s l => ⟨State.roomRequest_none, fun g rest hfifo hk => ⟨fun hidle => ?_, fun f hf => ⟨fun hno => ?_,
    fun i p x v hfault hph hp hx hv hfit => ?_⟩⟩⟩,
    fun s => ⟨fun l => ⟨fun hl => ?_, ?_⟩, fun l => State.grantAll_some, State.grantAll_none, s.granted_grantAll, rfl⟩⟩
  · rw [State.roomRequest_line hfifo hk, State.lineBursts_idle rfl hidle]
    rfl
  · rw [State.roomRequest_line hfifo hk, State.lineBursts_none rfl hf hno]
    rfl
  · rw [State.roomRequest_line hfifo hk, State.lineBursts_placing rfl hf hfault hph, List.length_map,
      State.length_takers hp hx hv hfit]
    congr 2
    funext e
    simp only [State.takesAt]
    cases look s.pool e <;> rfl
  · obtain ⟨hturn, hroom⟩ := State.granted_eq_some.mp hl
    obtain ⟨n, hn, hval, hsome, hbelow⟩ := State.linkInTurn_eq_some.mp hturn
    obtain ⟨k, hk⟩ := Option.isSome_iff_exists.mp hsome
    rw [hk] at hroom
    exact ⟨n, k, hn, hval, hk, hroom, hbelow⟩
  · rintro ⟨n, k, hn, hval, hk, hroom, hbelow⟩
    refine State.granted_eq_some.mpr ⟨State.linkInTurn_eq_some.mpr ⟨n, hn, hval, by rw [hk]; rfl, hbelow⟩, ?_⟩
    rw [hk]
    exact hroom

/-! ## A granted line (R130, R131) -/

section
variable {f : Frame} {g : Segment}

theorem Frame.lineFault_range (h : f.height.toNat ≤ g.fieldA.toNat) : f.lineFault g = some .range := if_pos h

/-- The line comes at or before the last accepted one (R130). -/
def Frame.Late (f : Frame) (g : Segment) : Prop := ∃ m, f.last = some m ∧ g.fieldA.toNat ≤ m.toNat

variable (h : g.fieldA.toNat < f.height.toNat)
include h

theorem Frame.lineFault_order (hlate : f.Late g) : f.lineFault g = some .order := by
  obtain ⟨m, hm, hle⟩ := hlate
  simp only [Frame.lineFault, hm]
  rw [if_neg (Nat.not_le.mpr h), if_pos (decide_eq_true hle)]

/-- A line in range and in order is checked for its length alone (R130). -/
theorem Frame.lineFault_inOrder (hlate : ¬ f.Late g) :
    f.lineFault g = if g.fieldB ≠ f.width then some .length else none := by
  cases hm : f.last with
  | none =>
    simp only [Frame.lineFault, hm]
    rw [if_neg (Nat.not_le.mpr h)]
    rfl
  | some m =>
    simp only [Frame.lineFault, hm]
    rw [if_neg (Nat.not_le.mpr h), if_neg fun hle => hlate ⟨m, hm, of_decide_eq_true hle⟩]

end

section
variable {s : State} {l : LinkNo} {g : Segment} {c : Channel} (hc : (look s.links l).contextOf g = c)
include hc

theorem State.processLine_idle (h : s.context? l c = none) : s.processLine l g = s.countLink l .noContext := by
  simp only [State.processLine, hc, h]

variable {f : Frame} (h : s.context? l c = some f)
include h

/-- A line that fails a check is counted and marks its frame damaged (R130). -/
theorem State.processLine_fault {n : LinkCounter} (hfault : f.lineFault g = some n) :
    s.processLine l g = (s.countLink l n).setContext l c (some { f with damaged := true }) := by
  simp only [State.processLine, hc, h, hfault]

/-- A line that passes is accepted, and its bursts join the queue (R131). -/
theorem State.processLine_accepted (hfault : f.lineFault g = none) :
    s.processLine l g = (s.joinBursts (s.lineBursts l g)).setContext l c
      (some { f with last := some g.fieldA, accepted := f.accepted + 1 }) := by
  simp only [State.processLine, hc, h, hfault]

end

/-- A grant to a link with a LINE at its head (R126, R144). -/
theorem State.doGrant_cons {s : State} {l : LinkNo} {g : Segment} {rest : List Segment}
    (hf : (look s.links l).fifo = g :: rest) :
    s.doGrant l = (({ s with lastGranted := l } : State).processLine l g).takeHeads l rest := by
  simp only [State.doGrant, hf]

/-- Settles O52: by the first check that the line fails. -/
theorem aGrantedLineIsCheckedAndAccepted : Obligations.AGrantedLineIsCheckedAndAccepted := by
  intro s l g rest hgrant hfifo k c u counted
  have hrun (t : State) (ht : u.processLine l g = t) : exec .grant s = .next (t.takeHeads l rest).grantAll := by
    change Host.Outcome.next s.grantAll = _
    rw [State.grantAll_some hgrant, State.doGrant_cons hfifo, ← ht]
  have hc : (look u.links l).contextOf g = c := rfl
  refine ⟨fun hidle => hrun _ ?_, fun f hf => ?_⟩
  · have hsame : put k.contexts c none = k.contexts := put_eq_self hidle
    rw [State.processLine_idle hc hidle]
    simp only [counted, hsame]
    rfl
  intro marked late
  have hcounted {n : LinkCounter} (hfault : f.lineFault g = some n) : u.processLine l g = counted n marked := by
    rw [State.processLine_fault hc hf hfault, State.setContext, State.countLink, State.setLink_links, look_put_same]
    simp only [State.setLink, put_put_same]
    rfl
  refine ⟨fun hrange => hrun _ (hcounted (Frame.lineFault_range hrange)), fun hrange hlate => hrun _
    (hcounted (Frame.lineFault_order hrange hlate)), fun hrange hlate hlength => hrun _ (hcounted ?_),
    fun hrange hlate hlength => hrun _ ?_⟩
  · rw [Frame.lineFault_inOrder hrange hlate, if_pos hlength]
  · have hfault : f.lineFault g = none := by
      rw [Frame.lineFault_inOrder hrange hlate, if_neg (not_not.mpr hlength)]
    rw [State.processLine_accepted hc hf hfault, State.setContext, State.links_joinBursts]
    simp only [State.setLink]
    rw [State.links_joinBursts]
    rfl

end Sys2Proof.Machine

/-! SUPPORT. The Silence Monitor, the invariants at reset, and the end of every command (R159 to R161, R186). -/

namespace Sys2Proof.Machine

/-! ## The millisecond boundary (R160, R161) -/

theorem State.placement?_boundary (s : State) (i : RecordNo) :
    s.boundary.placement? i = (s.placement? i).map Placement.ageStep := by
  unfold State.placement? State.boundary
  rw [look_map]
  rfl

theorem Record.reaches_eq (r : Record) : r.reaches = (r.placement.map Placement.reaches).getD false := by
  unfold Record.reaches
  cases r.placement <;> rfl

/-- The Expiry bit of a record is set where its age step is an expiry (R161). -/
theorem State.expirySet_boundary (s : State) (i : RecordNo) :
    look s.boundary.expirySet i = (look s.expirySet i || ((s.placement? i).map Placement.reaches).getD false) := by
  simp only [State.boundary, look_ofFn, Record.reaches_eq]
  rfl

/-- A record is aged: LIVE, with an interval, NEW or FLOWING (R160). -/
theorem Placement.aged_iff {p : Placement} :
    p.aged = true ↔ p.drain = none ∧ p.interval ≠ none ∧ p.activity ≠ .silent := by
  simp [Placement.aged, Option.isSome_iff_ne_none, and_assoc]

theorem Placement.ageStep_unaged {p : Placement} (h : ¬ p.aged = true) : p.ageStep = p ∧ p.reaches = false := by
  refine ⟨if_neg h, ?_⟩
  rw [Placement.reaches, Bool.eq_false_iff.mpr h, Bool.false_and]

section
variable {p : Placement} {n : U16} (hd : p.drain = none) (hi : p.interval = some n) (ha : p.activity ≠ .silent)
include hd hi ha

theorem Placement.aged_of_interval : p.aged = true := Placement.aged_iff.mpr ⟨hd, by rw [hi]; simp, ha⟩

theorem Placement.reaches_iff : p.reaches = true ↔ p.age + 1 = n := by
  rw [Placement.reaches, Placement.aged_of_interval hd hi ha, Bool.true_and, decide_eq_true_eq, hi, Option.some_inj]
  exact eq_comm

/-- An age step below the interval raises the age (R160). -/
theorem Placement.ageStep_below (h : p.age + 1 ≠ n) : p.ageStep = { p with age := p.age + 1 } := by
  have hno : ¬ p.reaches = true := mt (Placement.reaches_iff hd hi ha).mp h
  rw [Placement.ageStep, if_pos (Placement.aged_of_interval hd hi ha), if_neg hno]

/-- The age step that reaches the interval silences the record (R161). -/
theorem Placement.ageStep_expires (h : p.age + 1 = n) :
    p.ageStep = { p with age := p.age + 1, activity := .silent } := by
  rw [Placement.ageStep, if_pos (Placement.aged_of_interval hd hi ha), if_pos ((Placement.reaches_iff hd hi ha).mpr h)]

end

/-- Settles O55: record by record, by whether it is aged and whether it expires. -/
theorem aMillisecondAgesTheAgedRecords : Obligations.AMillisecondAgesTheAgedRecords := by
  intro s
  refine ⟨s.boundary, rfl, rfl, fun i => ?_, fun i hp => ?_, fun i p hp => ⟨fun hno => ?_, fun n hd hi ha => ⟨fun h => ?_,
    fun h => ?_⟩⟩⟩
  · simp only [State.boundary, look_map]
    rfl
  · rw [State.placement?_boundary, State.expirySet_boundary, hp]
    exact ⟨rfl, Bool.or_false _⟩
  · have hunaged : ¬ p.aged = true := by
      rw [Placement.aged_iff]
      rintro ⟨hd, hi, ha⟩
      rcases hno with h | h | h
      · exact h hd
      · exact hi h
      · exact ha h
    obtain ⟨hstep, hreaches⟩ := Placement.ageStep_unaged hunaged
    rw [State.placement?_boundary, State.expirySet_boundary, hp, Option.map_some, Option.map_some, hstep, hreaches]
    exact ⟨rfl, Bool.or_false _⟩
  · have hreaches : p.reaches = false := Bool.eq_false_iff.mpr (mt (Placement.reaches_iff hd hi ha).mp h)
    rw [State.placement?_boundary, State.expirySet_boundary, hp, Option.map_some, Option.map_some, hreaches,
      Placement.ageStep_below hd hi ha h]
    exact ⟨rfl, Bool.or_false _⟩
  · rw [State.placement?_boundary, State.expirySet_boundary, hp, Option.map_some, Option.map_some,
      (Placement.reaches_iff hd hi ha).mpr h, Placement.ageStep_expires hd hi ha h]
    exact ⟨rfl, Bool.or_true _⟩

/-- Settles O56: the expiry of a record is the boundary at which its age step reaches its interval. -/
theorem anExpirySilencesTheRecord : Obligations.AnExpirySilencesTheRecord := by
  intro s i p n hp hd hi ha h
  have hreaches : (look s.records i).reaches = true := by
    rw [Record.reaches_eq, show (look s.records i).placement = some p from hp]
    exact (Placement.reaches_iff hd hi ha).mpr h
  refine ⟨s.boundary, if_pos hreaches, rfl, rfl, ?_, ?_⟩
  · have hrecord : look s.boundary.records i =
        { look s.records i with placement := (s.placement? i).map Placement.ageStep } := look_map _ _ _
    rw [hrecord, hp, Option.map_some, Placement.ageStep_expires hd hi ha h, h]
  · rw [State.expirySet_boundary, hp, Option.map_some, (Placement.reaches_iff hd hi ha).mpr h]
    exact Bool.or_true _

end Sys2Proof.Machine

/-! SUPPORT. What one command can do: the effects of the transactions, the runs of the host commands, and the events of the
part, with the lemma that every command is one of them. -/

namespace Sys2Proof.Machine

/-! ## The effects of the transactions (09) -/

/-- What the effect of a transaction, before its frame is in its reply part, makes of a state. -/
inductive State.PortEffect (s : State) : State → Prop where
  | answer (bytes : List Byte) : s.PortEffect (s.answer bytes)
  | push (r : CommandRecord) (room : s.commandQueue.length < 16) :
      s.PortEffect ({ s with commandQueue := s.commandQueue ++ [r] }.answerCode .accepted)
  | priority (r : CommandRecord) : s.PortEffect (({ s with prioritySlot := some r }.preempt r).answerCode .accepted)
  | withdraw (bytes : List Byte) : s.PortEffect ({ s with prioritySlot := none }.answer bytes)
  | flush : s.PortEffect ({ s with commandQueue := [], backup := none }.answerCode .accepted)
  | pop (r : Response) (rest : List Response) (bytes : List Byte) (filled : s.responses = r :: rest) :
      s.PortEffect ({ s with responses := rest, draws := s.draws + 1 }.answer bytes)
  | status (bytes : List Byte) : s.PortEffect ({ s with draws := s.draws + 1 }.answer bytes)
  | link (l : LinkNo) (bytes : List Byte) :
      s.PortEffect ({ s.setLink l { look s.links l with attention := false } with draws := s.draws + 1 }.answer bytes)
  | framestore (bytes : List Byte) : s.PortEffect ({ s with fsAttention := false }.answer bytes)
  | controls (mask gate : Byte) (mark : Fin 16) :
      s.PortEffect ({ s with irqMask := mask, refillMark := mark, gateOpen := gate.getLsbD 0 }.answerCode .accepted)
  | tableReset : s.PortEffect (s.tableReset.answerCode .accepted)

/-! ## The runs of the host commands (05) -/

/-- What the run of a host command `r` from source `x` makes of the state in which it has begun. -/
inductive State.HostRun (u : State) (x : Source) (r : CommandRecord) : State → Prop where
  | completes (status : Status) (payload : Payload) (found : Option Handle) :
      u.HostRun x r (u.finish r status payload found)
  | create (p : CreateParams) (kind : r.command = .create p) (passed : u.createDenial p = none) :
      u.HostRun x r (u.enterScan x r .mutualComparison)
  | amend (p : AmendParams) (kind : r.command = .amend p) (passed : u.amendDenial p = none) :
      u.HostRun x r (u.enterScan x r .mutualComparison)
  | definePlane (p : PlaneParams) (kind : r.command = .definePlane p) (passed : p.denial = none) :
      u.HostRun x r (u.enterScan x r (u.planeNext 0))
  | attributes (i : RecordNo) (b : Placement) (p : AttributeParams) (used : u.placement? i = some b) :
      u.HostRun x r ((u.setPlacement i (b.withAttributes p)).finish r .ok .empty)
  | retire (i : RecordNo) (b : Placement) (abort : Bool) (payload : Payload) (used : u.placement? i = some b)
      (live : b.drain = none) : u.HostRun x r ((u.drain i b .retire abort).finish r .ok payload)
  | configureLink (l : LinkNo) (enable single : Bool) (z : PixelSize)
      (free : (look u.links l).changes single z = true → ∀ i, ¬ u.HoldsLink l i) :
      u.HostRun x r (u.completeConfigureLink r l enable single z)
  | timeout (n : Byte) (payload : Payload) : u.HostRun x r ({ u with ackTimeout := n }.finish r .ok payload)
  | levels (ls : Vector (Fin 8) 5) (payload : Payload) : u.HostRun x r ({ u with levels := ls }.finish r .ok payload)
  | recordCounters (i : RecordNo) (b : Placement) (payload : Payload) (used : u.placement? i = some b) :
      u.HostRun x r ((u.setPlacement i { b with counters := RecordCounters.zero }).finish r .ok payload)
  | linkCounters (l : LinkNo) (payload : Payload) :
      u.HostRun x r ((u.setLink l { look u.links l with counters := Vector.replicate 8 0 }).finish r .ok payload)
  | portCounters (payload : Payload) : u.HostRun x r ({ u with fsRefused := 0, fsTimeout := 0 }.finish r .ok payload)
  | sync (kind : r.command = .sync) : u.HostRun x r (u.startFence
      { source := x, request := .sync r, awaited := u.bursts.map fun _ => true, target := [] })

/-! ## The runs of the internal operations (03, section 3.5) -/

/-- What the run of the internal operation of a pending set for record `i` makes of the state in which it has begun. -/
inductive State.InternalRun (u : State) (i : RecordNo) : Source → State → Prop where
  | dropped (x : Source) : u.InternalRun i x u.dropped
  | expire (p : Placement) (used : u.placement? i = some p) (due : p.expires = true) :
      u.InternalRun i .expirySet (u.expire i p)
  | commit (p : Placement) (used : u.placement? i = some p) : u.InternalRun i .commitSet (u.startFence
      { source := .commitSet, request := .commit i, awaited := u.tagged i (p.slotsIn .superseded),
        target := p.slotsIn .superseded })
  | release (p : Placement) (used : u.placement? i = some p) : u.InternalRun i .releaseSet (u.startFence
      { source := .releaseSet, request := .release i, awaited := u.tagged i p.occupiedSlots, target := p.occupiedSlots })

/-! ## The events of the part -/

/-- What one command can make of a state. -/
inductive State.Event (s : State) : State → Prop where
  | nothing : s.Event s
  | powerOn : s.Event { State.reset with pending := s.pending, draws := s.draws, frame := s.frame.afterPowerOn }
  | frame (f : PortFrame) (short : ∀ request, f = .inProgress request → requestIncomplete request = true) :
      s.Event (s.withFrame f)
  | transaction (u : State) (effect : s.PortEffect u) : s.Event (u.withFrame .replying)
  | host (x : Source) (r : CommandRecord) (t : State) (starts : s.Starts x (.command r))
      (run : (s.begun x (.command r)).HostRun x r t) : s.Event t
  | internal (x : Source) (i : RecordNo) (t : State) (starts : s.Starts x (.internal i))
      (run : (s.begun x (.internal i)).InternalRun i x t) : s.Event t
  | scan (op : ScanOperation) (inFlight : s.engine = .scan op) : s.Event (s.stepScan op)
  | departure (how : Departure) (answers : s.answers how = true) : s.Event (s.countDeparture how).depart.grantAll
  | seek (l : LinkNo) (good : Bool) (seeking : (look s.links l).state = .seeking) :
      s.Event (s.setLink l ((look s.links l).seek good))
  | headerError (l : LinkNo) (locked : (look s.links l).state = .locked) : s.Event (s.lockedError l)
  | segment (l : LinkNo) (g : Segment) (locked : (look s.links l).state = .locked)
      (whole : g.payload.length = g.payloadLength (look s.links l).pixelSize) : s.Event (s.lockedGood l g)
  | grant : s.Event s.grantAll
  | abortIgnored (a : Abort) : s.Event { s with aborts := s.aborts.erase a }
  | abort (a : Abort) (f : Frame) (claiming : s.ClaimedAt a.context.link a.context.channel a.record) :
      s.Event (({ s with aborts := s.aborts.erase a } : State).truncate a.context.link a.context.channel).grantAll
  | boundary : s.Event s.boundary

/-- A transaction that is taken is an event of its effect, and an ignored one is none. -/
theorem State.event_taking {s : State} {effect : State → State} (h : s.PortEffect (effect s)) : s.Event (s.taking effect) := by
  by_cases hf : s.frame = .ignored
  · rw [State.taking_ignored hf]; exact .nothing
  · rw [State.taking_taken hf]; exact .transaction _ h

/-- A push is a frame that is cut, or a transaction. -/
theorem State.event_takePush {s : State} (length : Byte) (bytes : List Byte) {accept : CommandRecord → State → State}
    (h : ∀ r, s.PortEffect (accept r s)) : s.Event (s.takePush length bytes accept) := by
  unfold State.takePush
  split
  · exact .frame _ (by simp)
  · refine State.event_taking ?_
    split
    · exact .answer _
    · exact h _

/-- A host start is the run of a start that the arbiter takes, or nothing. -/
theorem State.event_startHost {α : Type} {s : State} {pick : Command → Option α}
    {run : Source → CommandRecord → α → State → State}
    (h : ∀ x r a (u : State), pick r.command = some a → u.HostRun x r (run x r a u)) : s.Event (s.startHost pick run) := by
  rcases s.startHost_cases pick run with hnone | ⟨x, r, a, hs, ha, hrun⟩
  · rw [hnone]; exact .nothing
  · rw [hrun]; exact .host x r _ hs (h x r a _ ha)

theorem State.event_startInternal {s : State} {x : Source} {run : RecordNo → State → State}
    (h : ∀ i (u : State), u.InternalRun i x (run i u)) : s.Event (s.startInternal x run) := by
  rcases s.startInternal_cases x run with hnone | ⟨i, hs, hrun⟩
  · rw [hnone]; exact .nothing
  · rw [hrun]; exact .internal x i _ hs (h i _)

/-- Start checks that fail complete the command, and that pass let it go on. -/
theorem State.hostRun_checked {u v : State} {x : Source} {r : CommandRecord} (d : Option Denial)
    (h : d = none → u.HostRun x r v) : u.HostRun x r (u.checked r d v) := by
  cases d with
  | none => exact h rfl
  | some d => exact .completes d.1 d.2 none

theorem State.event_endScan (s : State) (kind : Command → Bool) : s.Event (s.endScan kind) := by
  unfold State.endScan State.scanEnds
  cases he : s.engine with
  | idle => exact .nothing
  | fence op => exact .nothing
  | scan op =>
    by_cases hk : kind op.request.command = true
    · cases hv : s.scanVerdict op with
      | goOn position => simp only [hk, hv, if_true]; exact .nothing
      | conflict status payload => simp only [hk, hv, if_true]; exact .scan op he
      | clear => simp only [hk, hv, if_true]; exact .scan op he
    · simp only [hk, if_false, Bool.false_eq_true]
      exact .nothing

theorem State.event_takeDeparture (s : State) (how : Departure) : s.Event (s.takeDeparture how) := by
  unfold State.takeDeparture
  split
  · next h => exact .departure how h
  · exact .nothing

theorem State.event_endFence (s : State) (kind : FenceRequest → Bool) (how : Departure) : s.Event (s.endFence kind how) := by
  unfold State.endFence
  split
  · exact s.event_takeDeparture how
  · exact .nothing

theorem Segment.payloadLength_of_ne_line {g : Segment} (h : g.kind ≠ .line) (z : PixelSize) : g.payloadLength z = 0 := by
  unfold Segment.payloadLength
  cases hk : g.kind with
  | line => exact absurd hk h
  | openFrame => rfl
  | closeFrame => rfl

theorem State.event_headEvent (s : State) (l : LinkNo) {kind : SegmentKind} (hk : kind ≠ .line) (how : HeadArrival) :
    s.Event (s.headEvent l kind how) := by
  cases how with
  | joins ch a b =>
    simp only [State.headEvent]
    split
    · next h => exact .segment l _ h.1 (Segment.payloadLength_of_ne_line (g := ⟨kind, ch, a, b, []⟩) hk _).symm
    · exact .nothing
  | behindGrantedLine how =>
    simp only [State.headEvent]
    split
    · exact s.event_takeDeparture how
    · exact .nothing

theorem State.event_takeSegment (s : State) (l : LinkNo) (h : Option Segment) (bs : List Byte) :
    s.Event (s.takeSegment l h bs) := by
  cases hl : (look s.links l).state with
  | disabled => simp only [State.takeSegment, hl]; exact .nothing
  | seeking =>
    cases h with
    | none => simp only [State.takeSegment, hl]; exact .seek l false hl
    | some g =>
      simp only [State.takeSegment, hl]
      split
      · exact .seek l true hl
      · exact .nothing
  | locked =>
    cases h with
    | none => simp only [State.takeSegment, hl]; exact .headerError l hl
    | some g =>
      simp only [State.takeSegment, hl]
      by_cases hwhole : g.payloadLength (look s.links l).pixelSize ≤ bs.length
      · rw [Segment.withPayload?_of_le hwhole]
        refine .segment l _ hl ?_
        change (bs.take (g.payloadLength (look s.links l).pixelSize)).length = g.payloadLength (look s.links l).pixelSize
        exact List.length_take_of_le hwhole
      · have hnone : g.withPayload? (look s.links l).pixelSize bs = none := if_neg hwhole
        rw [hnone]
        exact .nothing


/-! ## Every command is an event -/

theorem State.portEffect_acceptCommand (s : State) (r : CommandRecord) : s.PortEffect (s.acceptCommand r) := by
  unfold State.acceptCommand
  split
  · next room => exact .push r room
  · exact .answer _

theorem State.portEffect_acceptPriority (s : State) (r : CommandRecord) : s.PortEffect (s.acceptPriority r) := by
  unfold State.acceptPriority
  split
  · exact .answer _
  · exact .priority r

theorem State.portEffect_withdrawSlot (s : State) : s.PortEffect s.withdrawSlot := by
  unfold State.withdrawSlot
  split
  · exact .withdraw _
  · exact .answer _

theorem State.portEffect_popOldest (s : State) : s.PortEffect s.popOldest := by
  unfold State.popOldest
  split
  · exact .answer _
  · next r rest filled => exact .pop r rest _ filled

theorem State.portEffect_reportLink (s : State) (link : Byte) : s.PortEffect (s.reportLink link) := by
  unfold State.reportLink
  split
  · exact .answer _
  · next l _ => exact .link l _

theorem State.portEffect_writeControls (s : State) (mask mark gate : Byte) : s.PortEffect (s.writeControls mask mark gate) := by
  unfold State.writeControls
  split
  · exact .answer _
  · exact .controls mask gate _

theorem State.event_cutFrame (s : State) (received : CutFrame) : s.Event (s.cutFrame received) := by
  cases received with
  | ended bytes => exact .frame .idle (by simp)
  | replied =>
    simp only [State.cutFrame]
    split
    · exact .frame .idle (by simp)
    · exact .nothing
  | underWay bytes =>
    have hframe : s.Event (if requestIncomplete bytes then s.withFrame (.inProgress bytes) else s) := by
      split
      · next short => exact .frame _ fun request hr => by cases hr; exact short
      · exact .nothing
    cases hf : s.frame with
    | ignored => simp only [State.cutFrame, hf]; exact .nothing
    | idle => simp only [State.cutFrame, hf]; exact hframe
    | inProgress request => simp only [State.cutFrame, hf]; exact hframe
    | replying => simp only [State.cutFrame, hf]; exact hframe

/-- The handle of a LIVE record passes as that record (R9). -/
theorem State.checkLive_eq_inr {s : State} {h : Handle} {i : RecordNo} {b : Placement} (hc : s.checkLive h = .inr (i, b)) :
    s.Names h i b ∧ b.drain = none := by
  by_cases hs : s.Stale h
  · rw [State.checkLive_stale hs] at hc
    cases hc
  · simp only [State.Stale, not_forall, not_or, not_not] at hs
    obtain ⟨j, hj, hplaced, hgeneration⟩ := hs
    obtain ⟨p, hp⟩ := Option.ne_none_iff_exists'.mp hplaced
    have hn : s.Names h j p := ⟨hj, hp, hgeneration⟩
    by_cases hd : p.drain = none
    · rw [State.checkLive_live hn hd] at hc
      cases hc
      exact ⟨hn, hd⟩
    · rw [State.checkLive_draining hn hd] at hc
      cases hc

theorem Command.create?_eq_some {c : Command} {p : CreateParams} (h : c.create? = some p) : c = .create p := by
  cases c <;> cases h
  rfl

theorem Command.amend?_eq_some {c : Command} {p : AmendParams} (h : c.amend? = some p) : c = .amend p := by
  cases c <;> cases h
  rfl

theorem Command.definePlane?_eq_some {c : Command} {p : PlaneParams} (h : c.definePlane? = some p) :
    c = .definePlane p := by
  cases c <;> cases h
  rfl

theorem Command.sync?_eq_some {c : Command} {a : Unit} (h : c.sync? = some a) : c = .sync := by
  cases c <;> cases h
  rfl

/-- A READ-COUNTERS of a record completes on a state whose counters are as they were or 0 (R114). -/
theorem State.hostRun_readRecordCounters (u : State) (x : Source) (r : CommandRecord) (p : CounterParams) :
    u.HostRun x r (u.readRecordCounters r p) := by
  have hrun (i : RecordNo) (b : Placement) (hb : u.placement? i = some b) : u.HostRun x r
      ((if p.clear then u.setPlacement i { b with counters := RecordCounters.zero } else u).finish r .ok
        (.recordCounters p.clear b.counters)) := by
    split
    · exact .recordCounters i b _ hb
    · exact .completes _ _ _
  have hplaced (i : RecordNo) (b : Placement) (h : u.checkHandle p.handle = .draining i b ∨ u.checkHandle p.handle = .live i b) :
      u.placement? i = some b := by
    by_cases hs : u.Stale p.handle
    · rw [(u.checkHandle_stale p.handle).mpr hs] at h
      rcases h with h | h <;> cases h
    · simp only [State.Stale, not_forall, not_or, not_not] at hs
      obtain ⟨j, hj, hplaced, hgeneration⟩ := hs
      obtain ⟨q, hq⟩ := Option.ne_none_iff_exists'.mp hplaced
      rw [State.checkHandle_names ⟨hj, hq, hgeneration⟩] at h
      split_ifs at h with hd
      · rcases h with h | h <;> cases h
        exact hq
      · rcases h with h | h <;> cases h
        exact hq
  unfold State.readRecordCounters
  split
  · exact .completes _ _ _
  · next i b h => exact hrun i b (hplaced i b (.inl h))
  · next i b h => exact hrun i b (hplaced i b (.inr h))

theorem State.hostRun_readLinkCounters (u : State) (x : Source) (r : CommandRecord) (p : CounterParams) :
    u.HostRun x r (u.readLinkCounters r p) := by
  unfold State.readLinkCounters
  split
  · exact .completes _ _ _
  · next l _ =>
    cases p.clear with
    | false => exact .completes _ _ _
    | true => exact .linkCounters l _

theorem State.hostRun_readPortCounters (u : State) (x : Source) (r : CommandRecord) (p : CounterParams) :
    u.HostRun x r (u.readPortCounters r p) := by
  unfold State.readPortCounters
  split
  · exact .portCounters _
  · exact .completes _ _ _

/-- The start command of a host command is a host start, or nothing happens. -/
theorem exec_event_host (s : State) {c : Instr} (hc : c ∈ [Instr.create, .amend, .definePlane, .setAttributes, .retire,
    .lookup, .query, .configureLink, .configureFramestore, .setLevels, .readCounters, .sync]) :
    ∃ t, exec c s = .next t ∧ s.Event t := by
  simp only [List.mem_cons, List.not_mem_nil, or_false] at hc
  rcases hc with rfl | rfl | rfl | rfl | rfl | rfl | rfl | rfl | rfl | rfl | rfl | rfl
  · exact ⟨_, rfl, State.event_startHost fun x r p u hp => State.hostRun_checked _ fun passed =>
      .create p (Command.create?_eq_some hp) passed⟩
  · exact ⟨_, rfl, State.event_startHost fun x r p u hp => State.hostRun_checked _ fun passed =>
      .amend p (Command.amend?_eq_some hp) passed⟩
  · exact ⟨_, rfl, State.event_startHost fun x r p u hp => State.hostRun_checked _ fun passed =>
      .definePlane p (Command.definePlane?_eq_some hp) passed⟩
  · refine ⟨_, rfl, State.event_startHost fun x r p u _ => ?_⟩
    split
    · exact .completes _ _ _
    · next i b h => exact .attributes i b p (State.checkLive_eq_inr h).1.2.1
  · refine ⟨_, rfl, State.event_startHost fun x r p u _ => ?_⟩
    split
    · exact .completes _ _ _
    · next i b h =>
      obtain ⟨⟨_, hb, _⟩, hlive⟩ := State.checkLive_eq_inr h
      exact .retire i b p.2 _ hb hlive
  · refine ⟨_, rfl, State.event_startHost fun x r p u _ => ?_⟩
    split
    · exact .completes _ _ _
    · split
      · exact .completes _ _ _
      · exact .completes _ _ _
  · refine ⟨_, rfl, State.event_startHost fun x r p u _ => ?_⟩
    split
    · exact .completes _ _ _
    · exact .completes _ _ _
  · refine ⟨_, rfl, State.event_startHost fun x r p u _ => ?_⟩
    split
    · exact .completes _ _ _
    · split
      · next i hi =>
        split
        · exact .completes _ _ _
        · next hc => exact .configureLink _ p.enable _ _ fun h => absurd h hc
      · next hi => exact .configureLink _ p.enable _ _ fun _ => State.holderOf_eq_none.mp hi
  · refine ⟨_, rfl, State.event_startHost fun x r p u _ => ?_⟩
    split
    · exact .completes _ _ _
    · exact .timeout p _
  · refine ⟨_, rfl, State.event_startHost fun x r p u _ => ?_⟩
    split
    · exact .completes _ _ _
    · exact .levels _ _
  · refine ⟨_, rfl, State.event_startHost fun x r p u _ => ?_⟩
    split
    · exact u.hostRun_readRecordCounters x r p
    · split
      · exact u.hostRun_readLinkCounters x r p
      · split
        · exact u.hostRun_readPortCounters x r p
        · exact .completes _ _ _
  · exact ⟨_, rfl, State.event_startHost fun x r p u hp => .sync (Command.sync?_eq_some hp)⟩

theorem exec_event_abortRequest (s : State) (i : RecordNo) (l : LinkNo) (c : Channel) :
    ∃ t, exec (.abortRequest i l c) s = .next t ∧ s.Event t := by
  by_cases hmem : ({ record := i, context := { link := l, channel := c } } : Abort) ∈ s.aborts
  · by_cases hclaimed : s.ClaimedAt l c i
    · obtain ⟨f, hf, hi⟩ := hclaimed
      exact ⟨_, exec_abortRequest_claimed hmem hf hi, .abort ⟨i, ⟨l, c⟩⟩ f ⟨f, hf, hi⟩⟩
    · exact ⟨_, exec_abortRequest_unclaimed hmem hclaimed, .abortIgnored _⟩
  · exact ⟨_, exec_abortRequest_untravelled hmem, .nothing⟩

/-- No command stops the part, and what a command makes of a state is an event. -/
theorem exec_event (c : Instr) (s : State) : ∃ t, exec c s = .next t ∧ s.Event t := by
  cases c with
  | powerOn => exact ⟨_, rfl, .powerOn⟩
  | incompleteFrame received => exact ⟨_, rfl, s.event_cutFrame received⟩
  | malformed code =>
    by_cases hc : code ∈ transactionCodes
    · exact ⟨_, if_pos hc, .nothing⟩
    · exact ⟨_, if_neg hc, State.event_taking (.answer _)⟩
  | pushCommand length bytes => exact ⟨_, rfl, State.event_takePush length bytes s.portEffect_acceptCommand⟩
  | pushPriority length bytes => exact ⟨_, rfl, State.event_takePush length bytes s.portEffect_acceptPriority⟩
  | withdrawPriority => exact ⟨_, rfl, State.event_taking s.portEffect_withdrawSlot⟩
  | flushQueue => exact ⟨_, rfl, State.event_taking .flush⟩
  | popResponse => exact ⟨_, rfl, State.event_taking s.portEffect_popOldest⟩
  | readStatus => exact ⟨_, rfl, State.event_taking (.status _)⟩
  | readLink link => exact ⟨_, rfl, State.event_taking (s.portEffect_reportLink link)⟩
  | readFramestore => exact ⟨_, rfl, State.event_taking (.framestore _)⟩
  | setPortControl mask mark gate => exact ⟨_, rfl, State.event_taking (s.portEffect_writeControls mask mark gate)⟩
  | tableReset => exact ⟨_, rfl, State.event_taking .tableReset⟩
  | create | amend | definePlane | setAttributes | retire | lookup | query | configureLink | configureFramestore | setLevels
  | readCounters | sync => exact exec_event_host s (by simp)
  | scanStep =>
    change ∃ t, execScanStep s = .next t ∧ _
    unfold execScanStep
    cases he : s.engine with
    | scan op => exact ⟨_, rfl, .scan op he⟩
    | idle => exact ⟨_, rfl, .nothing⟩
    | fence op => exact ⟨_, rfl, .nothing⟩
  | createCompletion => exact ⟨_, rfl, s.event_endScan _⟩
  | amendCompletion => exact ⟨_, rfl, s.event_endScan _⟩
  | definePlaneCompletion => exact ⟨_, rfl, s.event_endScan _⟩
  | syncCompletion how => exact ⟨_, rfl, s.event_endFence _ how⟩
  | expire =>
    refine ⟨_, rfl, State.event_startInternal fun i u => ?_⟩
    split
    · next p hp =>
      split
      · next hdue => exact .expire p hp hdue
      · exact .dropped _
    · exact .dropped _
  | commit =>
    refine ⟨_, rfl, State.event_startInternal fun i u => ?_⟩
    split
    · exact .dropped _
    · next p hp => exact .commit p hp
  | commitCompletion how => exact ⟨_, rfl, s.event_endFence _ how⟩
  | release =>
    refine ⟨_, rfl, State.event_startInternal fun i u => ?_⟩
    split
    · exact .dropped _
    · next p hp => exact .release p hp
  | releaseCompletion how => exact ⟨_, rfl, s.event_endFence _ how⟩
  | segmentArrival l h bs => exact ⟨_, rfl, s.event_takeSegment l _ bs⟩
  | openFrame l how => exact ⟨_, rfl, s.event_headEvent l (by decide) how⟩
  | closeFrame l how => exact ⟨_, rfl, s.event_headEvent l (by decide) how⟩
  | grant => exact ⟨_, rfl, .grant⟩
  | abortRequest i l c => exact exec_event_abortRequest s i l c
  | acknowledgement n => exact ⟨_, rfl, s.event_takeDeparture (.acknowledged n)⟩
  | errorResponse n => exact ⟨_, rfl, s.event_takeDeparture (.refused n)⟩
  | ackTimeout => exact ⟨_, rfl, s.event_takeDeparture .timedOut⟩
  | millisecondStep => exact ⟨_, rfl, .boundary⟩
  | expiry i =>
    by_cases hr : (look s.records i).reaches = true
    · exact ⟨_, if_pos hr, .boundary⟩
    · exact ⟨_, if_neg hr, .nothing⟩

end Sys2Proof.Machine

/-! SUPPORT. The queue of commands that wait through every event, and the invariants at reset (R186; log 20). -/

namespace Sys2Proof.Machine

/-! ## The queue of commands that wait -/

theorem State.OffFence.pending {s t : State} (h : s.OffFence t) : t.pending = s.pending := by rw [h]

theorem State.OffFrames.pending {s t : State} (h : s.OffFrames t) : t.pending = s.pending := h.offFence.pending

theorem State.pending_begun (s : State) (x : Source) (q : Request) : (s.begun x q).pending = s.pending := by
  rw [State.begun_frame]

theorem State.pending_preempt (s : State) (r : CommandRecord) : (s.preempt r).pending = s.pending := by
  unfold State.preempt
  split
  · split <;> rfl
  · rfl
  · rfl

theorem State.PortEffect.pending {s u : State} (h : s.PortEffect u) : u.pending = s.pending := by
  cases h with
  | priority r => exact State.pending_preempt _ r
  | _ => rfl

theorem State.pending_drain (s : State) (i : RecordNo) (p : Placement) (cause : DrainCause) (abort : Bool) :
    (s.drain i p cause abort).pending = s.pending := by
  unfold State.drain
  split
  · rfl
  · split <;> rfl

theorem State.pending_configureLink (s : State) (l : LinkNo) (enable single : Bool) (z : PixelSize) :
    (s.configureLink l enable single z).pending = s.pending := by
  by_cases h : (look s.links l).emptiedBy enable single z = true
  · rw [State.configureLink_emptied h]
    exact (State.setLink_pending _ _ _).trans (s.offFrames_truncateAll l).pending
  · obtain ⟨_, _, _, hk⟩ := State.configureLink_kept h
    rw [hk]
    rfl

theorem State.pending_completeConfigureLink (s : State) (r : CommandRecord) (l : LinkNo) (enable single : Bool)
    (z : PixelSize) : (s.completeConfigureLink r l enable single z).pending = s.pending := by
  simp only [State.completeConfigureLink]
  split
  · exact (State.offFrames_grantAll _).pending.trans (s.pending_configureLink l enable single z)
  · exact s.pending_configureLink l enable single z

theorem State.HostRun.pending {u t : State} {x : Source} {r : CommandRecord} (h : u.HostRun x r t) :
    t.pending = u.pending := by
  cases h with
  | retire i b abort payload => exact u.pending_drain i b .retire abort
  | configureLink l enable single z => exact u.pending_completeConfigureLink r l enable single z
  | sync => exact (u.offFence_startFence _).pending
  | _ => rfl

theorem State.pending_expire (s : State) (i : RecordNo) (p : Placement) : (s.expire i p).pending = s.pending := by
  simp only [State.expire]
  split
  · exact s.pending_drain i p .silence true
  · rfl

theorem State.InternalRun.pending {u t : State} {i : RecordNo} {x : Source} (h : u.InternalRun i x t) :
    t.pending = u.pending := by
  cases h with
  | dropped => rfl
  | expire p => exact u.pending_expire i p
  | commit p => exact (u.offFence_startFence _).pending
  | release p => exact (u.offFence_startFence _).pending

theorem State.pending_takeFlip (s : State) (i : RecordNo) : (s.takeFlip i).pending = s.pending :=
  (s.offFrames_takeFlip i).pending

theorem State.pending_completeScan (s : State) (r : CommandRecord) : (s.completeScan r).pending = s.pending := by
  unfold State.completeScan
  split
  · unfold State.completeCreate
    split <;> rfl
  · unfold State.completeAmend
    split
    · rfl
    · split
      · rfl
      · simp only
        split
        · exact State.pending_takeFlip _ _
        · rfl
  · unfold State.completeDefinePlane
    split <;> rfl
  all_goals rfl

theorem State.pending_stepScan (s : State) (op : ScanOperation) : (s.stepScan op).pending = s.pending := by
  unfold State.stepScan
  split
  · rfl
  · rfl
  · exact s.pending_completeScan op.request

/-- No event touches the queue of commands that wait. -/
theorem State.Event.pending {s t : State} (h : s.Event t) : t.pending = s.pending := by
  cases h with
  | transaction u effect => exact effect.pending
  | host x r t starts run => exact run.pending.trans (s.pending_begun x _)
  | internal x i t starts run => exact run.pending.trans (s.pending_begun x _)
  | scan op inFlight => exact s.pending_stepScan op
  | departure how answers =>
    exact (((s.offFence_countDeparture how).trans (State.offFence_depart _)).trans
      (State.offFrames_grantAll _).offFence).pending
  | headerError l locked => exact (s.offFrames_lockedError l).pending
  | segment l g locked whole => exact (s.offFrames_lockedGood l g).pending
  | grant => exact s.offFrames_grantAll.pending
  | abort a f claiming =>
    have herased : s.OffFrames { s with aborts := s.aborts.erase a } := rfl
    exact ((herased.trans (State.offFrames_truncate _ _ _)).trans (State.offFrames_grantAll _)).pending
  | nothing => rfl
  | powerOn => rfl
  | frame => rfl
  | seek => rfl
  | abortIgnored => rfl
  | boundary => rw [State.boundary]

/-- Settles O2: every command is an event, and no event touches the queue. -/
theorem noCommandStopsThePart : Obligations.NoCommandStopsThePart := by
  intro c s
  obtain ⟨t, ht, hevent⟩ := exec_event c s
  exact ⟨t, ht, hevent.pending⟩

end Sys2Proof.Machine

/-! SUPPORT. The part with its table side clear: after reset, POWER_ON and TABLE_RESET the invariants hold (R183, R186). -/

namespace Sys2Proof.Machine

/-- The table side is clear: no record in use, no key, no entry, no frame, no segment, no pending bit, no operation in
flight, no abort request, no burst (R183, R186). -/
structure State.Cleared (s : State) : Prop where
  records : ∀ i, s.placement? i = none
  keys : ∀ k, look s.keyIndex k = none
  entries : ∀ e, look s.pool e = none
  frames : ∀ l c, s.context? l c = none
  fifos : ∀ l, (look s.links l).fifo = []
  releases : ∀ i, look s.releaseSet i = false
  commits : ∀ i, look s.commitSet i = false
  expiries : ∀ i, look s.expirySet i = false
  idle : s.engine = .idle
  aborts : s.aborts = []
  bursts : s.bursts = []

/-- With the table side clear the tables agree. -/
theorem State.Cleared.tablesAgree {s : State} (h : s.Cleared) : s.TablesAgree := by
  refine ⟨?_, ?_, ⟨?_, ?_⟩, ?_, ⟨?_, ?_, ?_⟩, ?_⟩
  · intro i p hp
    rw [h.records i] at hp
    cases hp
  · intro k i
    rw [h.keys, h.records i]
    simp
  · intro i p c hp
    rw [h.records i] at hp
    cases hp
  · intro l c f i hf
    rw [h.frames l c] at hf
    cases hf
  · intro a ha
    rw [h.aborts] at ha
    cases ha
  · intro i hi
    rw [h.releases i] at hi
    cases hi
  · intro i hi
    rw [h.commits i] at hi
    cases hi
  · intro i hi
    rw [h.expiries i] at hi
    cases hi
  · simp only [State.OperationHolds, h.idle]

/-- No grant is possible while no link holds a request. -/
theorem State.granted_eq_none {s : State} (h : ∀ l, s.roomRequest l = none) : s.granted = none := by
  rw [Option.eq_none_iff_forall_ne_some]
  intro l hl
  obtain ⟨n, _, _, hsome, _⟩ := State.linkInTurn_eq_some.mp (State.granted_eq_some.mp hl).1
  rw [h l] at hsome
  cases hsome

/-- With the table side clear the windows are apart, where the planes are. -/
theorem State.Cleared.windowsApart {s : State} (h : s.Cleared) (hplanes : s.PlanesApart) : s.WindowsApart := by
  refine ⟨⟨?_, ?_⟩, ?_, ?_, hplanes, ?_, ⟨?_, ?_⟩, ?_, ?_, ?_⟩
  · intro e en he
    rw [h.entries e] at he
    cases he
  · intro i p x g hp
    rw [h.records i] at hp
    cases hp
  · intro e e' en en' _ he
    rw [h.entries e] at he
    cases he
  · intro b hb
    rw [h.bursts] at hb
    cases hb
  · intro e en he
    rw [h.entries e] at he
    cases he
  · intro l c f i hf
    rw [h.frames l c] at hf
    cases hf
  · intro l g hg
    rw [h.fifos l] at hg
    cases hg
  · simp only [State.ScanHolds, h.idle]
  · simp only [State.FenceHolds, h.idle]
  · exact State.granted_eq_none fun l => State.roomRequest_none (by rw [h.fifos l]; simp)

/-- A receiver with no segment and no frame is accounted when its runs are in range and enable is set outside DISABLED. -/
theorem Link.accounted_of_empty {k : Link} (hfifo : k.fifo = []) (hframes : ∀ c, look k.contexts c = none)
    (hruns : k.goodRun ≤ 4 ∧ k.errorRun ≤ 8 ∧ (k.state = .seeking → k.goodRun < 4) ∧ (k.state = .locked → k.errorRun < 8))
    (henable : k.enable = true ↔ k.state ≠ .disabled) : k.Accounted := by
  obtain ⟨hgood, herror, hseeking, hlocked⟩ := hruns
  exact ⟨by rw [hfifo]; simp, by rw [hfifo]; simp, fun _ => ⟨hfifo, hframes⟩, fun _ c _ => hframes c, hgood, herror,
    hseeking, hlocked, henable⟩

theorem Link.accounted_reset : Link.reset.Accounted :=
  Link.accounted_of_empty rfl (fun c => look_replicate none c) ⟨by decide, by decide, by decide, by decide⟩ (by decide)

section
variable {s : State} (pending : List Instr) (draws : Nat) (frame : PortFrame)

/-- The part after reset or POWER_ON, whatever commands wait and however the port stands. -/
def State.fresh (pending : List Instr) (draws : Nat) (frame : PortFrame) : State :=
  { State.reset with pending := pending, draws := draws, frame := frame }

theorem State.cleared_fresh : (State.fresh pending draws frame).Cleared where
  records i := by
    have hrecord : look (State.fresh pending draws frame).records i = { generation := 0, placement := none } :=
      look_replicate _ i
    rw [State.placement?, hrecord]
  keys k := look_replicate none k
  entries e := look_replicate none e
  frames l c := by
    have hlink : look (State.fresh pending draws frame).links l = Link.reset := look_replicate Link.reset l
    rw [State.context?, hlink]
    exact look_replicate none c
  fifos l := congrArg Link.fifo (look_replicate Link.reset l)
  releases i := look_replicate false i
  commits i := look_replicate false i
  expiries i := look_replicate false i
  idle := rfl
  aborts := rfl
  bursts := rfl

theorem State.planesApart_fresh : (State.fresh pending draws frame).PlanesApart := by
  have hnone (q : PlaneNo) : look (State.fresh pending draws frame).planes q = none := look_replicate none q
  refine ⟨fun q p hq => ?_, fun q q' p p' _ hq => ?_⟩
  · rw [hnone] at hq
    cases hq
  · rw [hnone] at hq
    cases hq

theorem State.accounted_fresh {frame : PortFrame}
    (hframe : ∀ request, frame = .inProgress request → requestIncomplete request = true) :
    (State.fresh pending draws frame).Accounted := by
  refine ⟨hframe, Nat.zero_le _, Nat.zero_le _, rfl, Nat.zero_le _, by simp [State.fresh, State.reset], fun l => ?_⟩
  have hlink : look (State.fresh pending draws frame).links l = Link.reset := look_replicate Link.reset l
  rw [hlink]
  exact Link.accounted_reset

end

/-- Settles O57. -/
theorem theInvariantsHoldAtReset : Obligations.TheInvariantsHoldAtReset := fun cs =>
  have hcleared := State.cleared_fresh cs 0 .idle
  ⟨State.accounted_fresh cs 0 (fun _ h => by cases h), hcleared.tablesAgree, hcleared.windowsApart (State.planesApart_fresh cs 0 .idle)⟩

section
variable (s : State)

/-- After TABLE_RESET the table side is clear (R183). -/
theorem State.cleared_tableReset : s.tableReset.Cleared where
  records := s.placement?_tableReset
  keys k := look_replicate none k
  entries e := look_replicate none e
  frames l c := by
    rw [State.context?, State.look_links_tableReset]
    exact look_replicate none c
  fifos l := by rw [State.look_links_tableReset]; rfl
  releases i := look_replicate false i
  commits i := look_replicate false i
  expiries i := look_replicate false i
  idle := rfl
  aborts := rfl
  bursts := rfl

end

end Sys2Proof.Machine

/-! SUPPORT. The accounts of the link receivers: what the data path keeps of them (R119, R120, R125). -/

namespace Sys2Proof.Machine

/-! ## Receivers that differ in frames and counters alone -/

/-- `k'` differs from `k` at most in its contexts and its counters. -/
def Link.OffContexts (k k' : Link) : Prop := k' = { k with contexts := k'.contexts, counters := k'.counters }

theorem Link.OffContexts.refl (k : Link) : k.OffContexts k := rfl

theorem Link.OffContexts.trans {k k' k'' : Link} (h : k.OffContexts k') (h' : k'.OffContexts k'') : k.OffContexts k'' := by
  unfold Link.OffContexts at *
  rw [h', h]

theorem Link.OffContexts.state {k k' : Link} (h : k.OffContexts k') : k'.state = k.state := by rw [h]
theorem Link.OffContexts.single {k k' : Link} (h : k.OffContexts k') : k'.single = k.single := by rw [h]
theorem Link.OffContexts.pixelSize {k k' : Link} (h : k.OffContexts k') : k'.pixelSize = k.pixelSize := by rw [h]
theorem Link.OffContexts.fifo {k k' : Link} (h : k.OffContexts k') : k'.fifo = k.fifo := by rw [h]

theorem Link.OffContexts.contextOf {k k' : Link} (h : k.OffContexts k') (g : Segment) : k'.contextOf g = k.contextOf g := by
  rw [Link.contextOf, h.single, Link.contextOf]

/-- Every receiver of `t` differs from that of `s` at most in its contexts and counters. -/
def State.OffContexts (s t : State) : Prop := ∀ m, (look s.links m).OffContexts (look t.links m)

theorem State.OffContexts.refl (s : State) : s.OffContexts s := fun m => .refl (look s.links m)

theorem State.OffContexts.trans {s t u : State} (h : s.OffContexts t) (h' : t.OffContexts u) : s.OffContexts u :=
  fun m => (h m).trans (h' m)

/-- States with the same receivers. -/
theorem State.offContexts_of_links {s t : State} (h : t.links = s.links) : s.OffContexts t := fun m => by
  rw [h]
  exact .refl _

theorem State.offContexts_setLink {s : State} {l : LinkNo} {k : Link} (h : (look s.links l).OffContexts k) :
    s.OffContexts (s.setLink l k) := fun m => by
  rw [State.setLink_links, look_put]
  split_ifs with hl
  · exact hl ▸ h
  · exact .refl _

theorem State.offContexts_setContext (s : State) (l : LinkNo) (c : Channel) (f : Option Frame) :
    s.OffContexts (s.setContext l c f) := State.offContexts_setLink rfl

theorem State.offContexts_countLink (s : State) (l : LinkNo) (n : LinkCounter) : s.OffContexts (s.countLink l n) :=
  State.offContexts_setLink rfl

theorem State.offContexts_endFrame (s : State) (l : LinkNo) (c : Channel) (f : Frame) (n : RecordCounter) :
    s.OffContexts (s.endFrame l c f n) := fun m => by
  rw [s.links_endFrame l c f n]
  exact s.offContexts_setContext l c none m

theorem State.offContexts_truncate (s : State) (l : LinkNo) (c : Channel) : s.OffContexts (s.truncate l c) := by
  cases hf : s.context? l c with
  | none => rw [State.truncate_idle hf]; exact .refl s
  | some f =>
    rw [State.truncate_open hf]
    exact (s.offContexts_countLink l _).trans (State.offContexts_endFrame _ l c f _)

/-! ## OPEN, CLOSE and LINE by cases (R129, R131, R132) -/

/-- What the processing of an OPEN makes of a state: the context's frame is truncated, and then it is UNROUTED, REFUSED, or
claims the record of its key. -/
theorem State.processOpen_cases (s : State) (l : LinkNo) (g : Segment) :
    let c := (look s.links l).contextOf g
    let u := s.truncate l c
    s.processOpen l g = (u.countLink l .unrouted).setContext l c (some (Frame.opened g .unrouted)) ∨
      ∃ i p, look u.keyIndex (Key.place { link := l, channel := c }) = some i ∧ u.placement? i = some p ∧
        (s.processOpen l g =
            (u.setPlacement i (p.heard.count .refused)).setContext l c (some (Frame.opened g .refused)) ∨
          (p.nextGeometry = some (g.fieldA, g.fieldB) ∧ s.processOpen l g =
            ((u.setPlacement i p.heard).openAndClaim i { link := l, channel := c }).setContext l c
              (some (Frame.opened g (if p.hold then .holding i else .placing i))))) := by
  intro c u
  cases hk : look u.keyIndex (Key.place { link := l, channel := c }) with
  | none => exact .inl (State.processOpen_unrouted rfl hk)
  | some i =>
    cases hp : u.placement? i with
    | none =>
      refine .inl ?_
      have hk' : look (s.truncate l ((look s.links l).contextOf g)).keyIndex
          (Key.place { link := l, channel := (look s.links l).contextOf g }) = some i := hk
      have hp' : (s.truncate l ((look s.links l).contextOf g)).placement? i = none := hp
      simp only [State.processOpen, hk', hp', Option.bind_some, Option.map_none]
      rfl
    | some p =>
      refine .inr ⟨i, p, rfl, hp, ?_⟩
      by_cases hg : p.nextGeometry = some (g.fieldA, g.fieldB)
      · exact .inr ⟨hg, State.processOpen_claims rfl hk hp hg⟩
      · exact .inl (State.processOpen_refused rfl hk hp hg)

/-- The frames after an OPEN: that of its context, and those there were. -/
theorem State.context?_processOpen {s : State} {l m : LinkNo} {g : Segment} {d : Channel}
    (h : (s.processOpen l g).context? m d ≠ none) :
    s.context? m d ≠ none ∨ (m = l ∧ d = (look s.links l).contextOf g) := by
  by_cases hmd : l = m ∧ (look s.links l).contextOf g = d
  · exact .inr ⟨hmd.1.symm, hmd.2.symm⟩
  · refine .inl fun hnone => h ?_
    have hu : (s.truncate l ((look s.links l).contextOf g)).context? m d = none := by
      rw [State.context?_truncate, if_neg hmd, hnone]
    rcases s.processOpen_cases l g with heq | ⟨i, p, _, _, heq | ⟨_, heq⟩⟩
    · rw [heq, State.context?_setContext, if_neg hmd, State.context?_countLink, hu]
    · rw [heq, State.context?_setContext, if_neg hmd]
      exact hu
    · rw [heq, State.context?_setContext, if_neg hmd, State.context?_congr (State.links_openAndClaim _ i _)]
      exact hu

theorem State.offContexts_processOpen (s : State) (l : LinkNo) (g : Segment) : s.OffContexts (s.processOpen l g) := by
  refine (s.offContexts_truncate l ((look s.links l).contextOf g)).trans ?_
  rcases s.processOpen_cases l g with heq | ⟨i, p, _, _, heq | ⟨_, heq⟩⟩
  · rw [heq]
    exact (State.offContexts_countLink _ l _).trans (State.offContexts_setContext _ l _ _)
  · rw [heq]
    exact (State.offContexts_of_links (State.links_setPlacement _ i _)).trans (State.offContexts_setContext _ l _ _)
  · rw [heq]
    exact (State.offContexts_of_links ((State.links_openAndClaim _ i _).trans (State.links_setPlacement _ i _))).trans
      (State.offContexts_setContext _ l _ _)

theorem State.offContexts_processClose (s : State) (l : LinkNo) (g : Segment) : s.OffContexts (s.processClose l g) := by
  cases hf : s.context? l ((look s.links l).contextOf g) with
  | none => rw [State.processClose_idle rfl hf]; exact s.offContexts_countLink l _
  | some f => rw [State.processClose_open rfl hf]; exact s.offContexts_endFrame l _ f _

/-- After a CLOSE there are no frames but those there were. -/
theorem State.context?_processClose {s : State} {l m : LinkNo} {g : Segment} {d : Channel}
    (h : (s.processClose l g).context? m d ≠ none) : s.context? m d ≠ none := by
  cases hf : s.context? l ((look s.links l).contextOf g) with
  | none =>
    rw [State.processClose_idle rfl hf, State.context?_countLink] at h
    exact h
  | some f =>
    rw [State.processClose_open rfl hf, State.context?_endFrame] at h
    split_ifs at h
    · exact absurd rfl h
    · exact h

/-- What the processing of a LINE makes of a state (R130, R131). -/
theorem State.processLine_cases (s : State) (l : LinkNo) (g : Segment) :
    let c := (look s.links l).contextOf g
    s.processLine l g = s.countLink l .noContext ∨ ∃ f, s.context? l c = some f ∧
      ((∃ n, s.processLine l g = (s.countLink l n).setContext l c (some { f with damaged := true })) ∨
        (f.lineFault g = none ∧ s.processLine l g = (s.joinBursts (s.lineBursts l g)).setContext l c
          (some { f with last := some g.fieldA, accepted := f.accepted + 1 }))) := by
  intro c
  cases hf : s.context? l c with
  | none => exact .inl (State.processLine_idle rfl hf)
  | some f =>
    refine .inr ⟨f, rfl, ?_⟩
    cases hfault : f.lineFault g with
    | some n => exact .inl ⟨n, State.processLine_fault rfl hf hfault⟩
    | none => exact .inr ⟨rfl, State.processLine_accepted rfl hf hfault⟩

theorem State.offContexts_processLine (s : State) (l : LinkNo) (g : Segment) : s.OffContexts (s.processLine l g) := by
  rcases s.processLine_cases l g with heq | ⟨f, _, ⟨n, heq⟩ | ⟨_, heq⟩⟩
  · rw [heq]; exact s.offContexts_countLink l _
  · rw [heq]; exact (s.offContexts_countLink l n).trans (State.offContexts_setContext _ l _ _)
  · rw [heq]
    exact (State.offContexts_of_links (State.links_joinBursts s _)).trans (State.offContexts_setContext _ l _ _)

/-- After a LINE there are no frames but those there were. -/
theorem State.context?_processLine {s : State} {l m : LinkNo} {g : Segment} {d : Channel}
    (h : (s.processLine l g).context? m d ≠ none) : s.context? m d ≠ none := by
  rcases s.processLine_cases l g with heq | ⟨f, hf, ⟨n, heq⟩ | ⟨_, heq⟩⟩
  · rw [heq, State.context?_countLink] at h
    exact h
  · rw [heq, State.context?_setContext, State.context?_countLink] at h
    split_ifs at h with hmd
    · obtain ⟨rfl, rfl⟩ := hmd
      rw [hf]
      simp
    · exact h
  · rw [heq, State.context?_setContext, State.context?_congr (State.links_joinBursts s _)] at h
    split_ifs at h with hmd
    · obtain ⟨rfl, rfl⟩ := hmd
      rw [hf]
      simp
    · exact h

/-! ## The accounts of the receivers -/

/-- Every receiver is accounted. -/
def State.LinksAccounted (s : State) : Prop := ∀ l, (look s.links l).Accounted

theorem State.linksAccounted_setLink {s : State} (h : s.LinksAccounted) {l : LinkNo} {k : Link} (hk : k.Accounted) :
    (s.setLink l k).LinksAccounted := fun m => by
  rw [State.setLink_links, look_put]
  split_ifs
  · exact hk
  · exact h m

/-- A link with a segment or a frame is LOCKED. -/
theorem Link.Accounted.locked_of_fifo {k : Link} (h : k.Accounted) (hf : k.fifo ≠ []) : k.state = .locked := by
  obtain ⟨_, _, hlocked, _⟩ := h
  by_contra hne
  exact hf (hlocked hne).1

/-- A frame may stand in a context: its link is LOCKED, and in single mode the context is context 0. -/
def Link.Holds (k : Link) (c : Channel) : Prop := k.state = .locked ∧ (k.single = true → c = 0)

theorem Link.Accounted.holds_of_context {k : Link} (h : k.Accounted) {c : Channel} (hf : look k.contexts c ≠ none) :
    k.Holds c := by
  obtain ⟨_, _, hlocked, hsingle, _⟩ := h
  refine ⟨?_, fun hs => ?_⟩
  · by_contra hne
    exact hf ((hlocked hne).2 c)
  · by_contra hc
    exact hf (hsingle hs c hc)

/-- In a LOCKED link the context of a segment may hold a frame (R124). -/
theorem Link.holds_contextOf {k : Link} (h : k.state = .locked) (g : Segment) : k.Holds (k.contextOf g) :=
  ⟨h, fun hs => by rw [Link.contextOf, if_pos hs]⟩

/-- Receivers that differ in frames and counters stay accounted where each frame may stand. -/
theorem State.LinksAccounted.offContexts {s t : State} (h : s.LinksAccounted) (ho : s.OffContexts t)
    (hf : ∀ m c, t.context? m c ≠ none → s.context? m c ≠ none ∨ (look s.links m).Holds c) : t.LinksAccounted := by
  intro m
  have hholds (c : Channel) (hc : look (look t.links m).contexts c ≠ none) : (look s.links m).Holds c :=
    (hf m c hc).elim (h m).holds_of_context id
  obtain ⟨hlength, hhead, hlocked, _, hgood, herror, hseeking, hlockedRun, henable⟩ := h m
  rw [ho m]
  refine ⟨hlength, hhead, fun hne => ⟨(hlocked hne).1, fun c => ?_⟩, fun hs c hc => ?_, hgood, herror, hseeking, hlockedRun,
    henable⟩
  · by_contra hsome
    exact hne (hholds c hsome).1
  · by_contra hsome
    exact hc ((hholds c hsome).2 hs)

theorem State.LinksAccounted.truncate {s : State} (h : s.LinksAccounted) (l : LinkNo) (c : Channel) :
    (s.truncate l c).LinksAccounted :=
  h.offContexts (s.offContexts_truncate l c) fun m d hd => by
    rw [State.context?_truncate] at hd
    split_ifs at hd
    · exact absurd rfl hd
    · exact .inl hd

theorem State.LinksAccounted.processOpen {s : State} (h : s.LinksAccounted) {l : LinkNo}
    (hl : (look s.links l).state = .locked) (g : Segment) : (s.processOpen l g).LinksAccounted :=
  h.offContexts (s.offContexts_processOpen l g) fun m c hc =>
    (State.context?_processOpen hc).imp_right fun ⟨hm, hc⟩ => by
      rw [hm, hc]
      exact Link.holds_contextOf hl g

theorem State.LinksAccounted.processClose {s : State} (h : s.LinksAccounted) (l : LinkNo) (g : Segment) :
    (s.processClose l g).LinksAccounted :=
  h.offContexts (s.offContexts_processClose l g) fun _ _ hc => .inl (State.context?_processClose hc)

theorem State.LinksAccounted.processLine {s : State} (h : s.LinksAccounted) (l : LinkNo) (g : Segment) :
    (s.processLine l g).LinksAccounted :=
  h.offContexts (s.offContexts_processLine l g) fun _ _ hc => .inl (State.context?_processLine hc)

/-- A LOCKED receiver takes another FIFO of at most 4 segments behind a LINE. -/
theorem Link.Accounted.withFifo {k : Link} (h : k.Accounted) (hl : k.state = .locked) {gs : List Segment}
    (hlength : gs.length ≤ 4) (hhead : ∀ g ∈ gs.head?, g.kind = .line) : ({ k with fifo := gs } : Link).Accounted := by
  obtain ⟨_, _, _, hsingle, hruns⟩ := h
  exact ⟨hlength, hhead, fun hne => absurd hl hne, hsingle, hruns⟩

/-- The heads behind a granted LINE are taken, and the FIFO then begins with a LINE (R126). -/
theorem State.LinksAccounted.takeHeads {s : State} (h : s.LinksAccounted) {l : LinkNo}
    (hl : (look s.links l).state = .locked) {gs : List Segment} (hgs : gs.length ≤ 4) :
    (s.takeHeads l gs).LinksAccounted := by
  induction gs generalizing s with
  | nil => exact State.linksAccounted_setLink h ((h l).withFifo hl (Nat.zero_le _) (by simp))
  | cons g rest ih =>
    have hrest : rest.length ≤ 4 := Nat.le_of_succ_le hgs
    cases hk : g.kind with
    | line =>
      simp only [State.takeHeads, hk]
      exact State.linksAccounted_setLink h ((h l).withFifo hl hgs (by simp [hk]))
    | openFrame =>
      simp only [State.takeHeads, hk]
      exact ih (h.processOpen hl g) ((s.offContexts_processOpen l g l).state.trans hl) hrest
    | closeFrame =>
      simp only [State.takeHeads, hk]
      exact ih (h.processClose l g) ((s.offContexts_processClose l g l).state.trans hl) hrest

theorem State.LinksAccounted.doGrant {s : State} (h : s.LinksAccounted) (l : LinkNo) : (s.doGrant l).LinksAccounted := by
  cases hf : (look s.links l).fifo with
  | nil => simp only [State.doGrant, hf]; exact h
  | cons g rest =>
    rw [State.doGrant_cons hf]
    have hl : (look s.links l).state = .locked := (h l).locked_of_fifo (by rw [hf]; simp)
    have hrest : rest.length ≤ 4 := Nat.le_of_succ_le (by have := (h l).1; rwa [hf] at this)
    have hu : ({ s with lastGranted := l } : State).LinksAccounted := h
    exact (hu.processLine l g).takeHeads ((State.offContexts_processLine _ l g l).state.trans hl) hrest

/-! ## The accounts of the Burst Queue (R147, R148) -/

/-- At most 32 bursts, and one outstanding exactly while the queue holds one. -/
def State.BurstsAccounted (s : State) : Prop := s.bursts.length ≤ 32 ∧ (s.timer.isSome = true ↔ s.bursts ≠ [])

theorem State.BurstsAccounted.joinBursts {s : State} (h : s.BurstsAccounted) {bs : List Burst}
    (hroom : bs.length ≤ s.burstRoom) : (s.joinBursts bs).BurstsAccounted := by
  obtain ⟨hlength, htimer⟩ := h
  have hlength' : s.bursts.length + bs.length ≤ 32 := by
    rw [State.burstRoom] at hroom
    omega
  by_cases hbehind : s.bursts ≠ [] ∨ bs = []
  · rw [State.joinBursts_behind hbehind]
    refine ⟨by rw [← List.length_append] at hlength'; exact hlength', htimer.trans ?_⟩
    rcases hbehind with hne | rfl
    · exact ⟨fun _ => List.append_ne_nil_of_left_ne_nil hne bs, fun _ => hne⟩
    · rw [List.append_nil]
  · obtain ⟨hnil, hbs⟩ := not_or.mp hbehind
    rw [State.joinBursts_empty (not_not.mp hnil) hbs]
    exact ⟨(Nat.le_add_left _ _).trans hlength', fun _ => hbs, fun _ => rfl⟩

/-- The bursts after some join. -/
theorem State.bursts_joinBursts (s : State) (bs : List Burst) : (s.joinBursts bs).bursts = s.bursts ++ bs := by
  simp only [State.joinBursts]
  split <;> rfl

end Sys2Proof.Machine

/-! SUPPORT. The accounts of the part through the data path (R120, R123, R125, R136, R147, R148). -/

namespace Sys2Proof.Machine

/-! ## What opens and closes write -/

/-- `t` differs from `s` at most in what OPENs, CLOSEs and truncations write: records, two pending sets, the travelling
abort requests and the receivers. -/
def State.OffQueue (s t : State) : Prop :=
  t = { s with
    records := t.records, commitSet := t.commitSet, releaseSet := t.releaseSet, aborts := t.aborts, links := t.links }

theorem State.OffQueue.refl (s : State) : s.OffQueue s := rfl

theorem State.OffQueue.trans {s t u : State} (h : s.OffQueue t) (k : t.OffQueue u) : s.OffQueue u := by
  unfold State.OffQueue at *
  rw [k, h]

theorem State.OffClaims.offQueue {s t : State} (h : s.OffClaims t) : s.OffQueue t := by
  unfold State.OffClaims State.OffQueue at *
  rw [h]

theorem State.OffQueue.bursts {s t : State} (h : s.OffQueue t) : t.bursts = s.bursts := by rw [h]
theorem State.OffQueue.timer {s t : State} (h : s.OffQueue t) : t.timer = s.timer := by rw [h]

theorem State.offQueue_setLink (s : State) (l : LinkNo) (k : Link) : s.OffQueue (s.setLink l k) := rfl

theorem State.offQueue_setContext (s : State) (l : LinkNo) (c : Channel) (f : Option Frame) :
    s.OffQueue (s.setContext l c f) := rfl

theorem State.offQueue_setPlacement (s : State) (i : RecordNo) (p : Placement) : s.OffQueue (s.setPlacement i p) := rfl

theorem State.offQueue_takeFlip (s : State) (i : RecordNo) : s.OffQueue (s.takeFlip i) := by
  unfold State.takeFlip
  split
  · split <;> rfl
  · exact .refl s

theorem State.offQueue_openAndClaim (s : State) (i : RecordNo) (c : Key) : s.OffQueue (s.openAndClaim i c) := by
  cases hp : s.placement? i with
  | none =>
    have hflip : s.takeFlip i = s := by simp only [State.takeFlip, hp]
    simp only [State.openAndClaim, hflip, hp]
    exact .refl s
  | some p =>
    by_cases hst : p.slotsIn .staged = []
    · rw [State.openAndClaim_plain hp hst]; rfl
    · rw [State.openAndClaim_flip hp hst]; rfl

theorem State.offQueue_processOpen (s : State) (l : LinkNo) (g : Segment) : s.OffQueue (s.processOpen l g) := by
  refine (s.offClaims_truncate l ((look s.links l).contextOf g)).offQueue.trans ?_
  rcases s.processOpen_cases l g with heq | ⟨i, p, _, _, heq | ⟨_, heq⟩⟩
  · rw [heq]
    exact (State.offQueue_setLink _ l _).trans (State.offQueue_setContext _ l _ _)
  · rw [heq]
    exact (State.offQueue_setPlacement _ i _).trans (State.offQueue_setContext _ l _ _)
  · rw [heq]
    exact ((State.offQueue_setPlacement _ i _).trans (State.offQueue_openAndClaim _ i _)).trans
      (State.offQueue_setContext _ l _ _)

theorem State.offQueue_processClose (s : State) (l : LinkNo) (g : Segment) : s.OffQueue (s.processClose l g) := by
  cases hf : s.context? l ((look s.links l).contextOf g) with
  | none => rw [State.processClose_idle rfl hf]; exact s.offQueue_setLink l _
  | some f => rw [State.processClose_open rfl hf]; exact (s.offClaims_endFrame l _ f _).offQueue

theorem State.offQueue_takeHeads (l : LinkNo) (gs : List Segment) (s : State) : s.OffQueue (s.takeHeads l gs) := by
  induction gs generalizing s with
  | nil => exact s.offQueue_setLink l _
  | cons g gs ih =>
    cases hk : g.kind with
    | line => simp only [State.takeHeads, hk]; exact s.offQueue_setLink l _
    | openFrame => simp only [State.takeHeads, hk]; exact (s.offQueue_processOpen l g).trans (ih _)
    | closeFrame => simp only [State.takeHeads, hk]; exact (s.offQueue_processClose l g).trans (ih _)

/-! ## The bursts of a grant (R141, R145) -/

/-- A LINE queues its bursts or none. -/
theorem State.bursts_processLine (s : State) (l : LinkNo) (g : Segment) :
    (s.processLine l g).bursts = s.bursts ∧ (s.processLine l g).timer = s.timer ∨
      (s.processLine l g).bursts = (s.joinBursts (s.lineBursts l g)).bursts ∧
        (s.processLine l g).timer = (s.joinBursts (s.lineBursts l g)).timer := by
  rcases s.processLine_cases l g with heq | ⟨f, _, ⟨n, heq⟩ | ⟨_, heq⟩⟩
  · rw [heq]; exact .inl ⟨rfl, rfl⟩
  · rw [heq]; exact .inl ⟨rfl, rfl⟩
  · rw [heq]; exact .inr ⟨rfl, rfl⟩

/-- A granted link asks for no more entries than are free (R144). -/
theorem State.room_of_granted {s : State} {l : LinkNo} {g : Segment} {rest : List Segment} (h : s.granted = some l)
    (hf : (look s.links l).fifo = g :: rest) (hk : g.kind = .line) : (s.lineBursts l g).length ≤ s.burstRoom := by
  have hroom := (State.granted_eq_some.mp h).2
  rwa [State.roomRequest_line hf hk] at hroom

/-- A grant keeps the accounts of the Burst Queue, and takes no burst from it. -/
theorem State.BurstsAccounted.doGrant {s : State} (h : s.BurstsAccounted) {l : LinkNo} (hg : s.granted = some l) :
    (s.doGrant l).BurstsAccounted ∧ s.bursts.length ≤ (s.doGrant l).bursts.length := by
  obtain ⟨g, rest, hf, hk⟩ := State.fifo_of_granted hg
  obtain ⟨u, hu⟩ : ∃ u : State, u = { s with lastGranted := l } := ⟨_, rfl⟩
  have hbursts : u.bursts = s.bursts := by rw [hu]
  have hroom : (u.lineBursts l g).length ≤ u.burstRoom := by
    have hsame : u.lineBursts l g = s.lineBursts l g := by rw [hu]; rfl
    rw [hsame, State.burstRoom, hbursts]
    exact State.room_of_granted hg hf hk
  have haccounted : u.BurstsAccounted := by rw [hu]; exact h
  have hheads := State.offQueue_takeHeads l rest (u.processLine l g)
  rw [State.doGrant_cons hf, ← hu]
  unfold State.BurstsAccounted
  rw [hheads.bursts, hheads.timer]
  rcases u.bursts_processLine l g with ⟨hb, ht⟩ | ⟨hb, ht⟩
  · rw [hb, ht, ← hbursts]
    exact ⟨haccounted, Nat.le_refl _⟩
  · rw [hb, ht]
    refine ⟨haccounted.joinBursts hroom, ?_⟩
    rw [State.bursts_joinBursts, List.length_append, hbursts]
    exact Nat.le_add_right _ _

/-! ## The accounts that the data path writes -/

/-- The receivers and the Burst Queue are accounted. -/
def State.DataAccounted (s : State) : Prop := s.LinksAccounted ∧ s.BurstsAccounted

/-- `t` keeps the accounts that the data path writes, and has at least the bursts of `s`. -/
def State.DataKeeps (s t : State) : Prop := s.DataAccounted → t.DataAccounted ∧ s.bursts.length ≤ t.bursts.length

theorem State.DataKeeps.trans {s t u : State} (h : s.DataKeeps t) (h' : t.DataKeeps u) : s.DataKeeps u := fun hs =>
  have ⟨ht, hst⟩ := h hs
  have ⟨hu, htu⟩ := h' ht
  ⟨hu, hst.trans htu⟩

/-- Receivers that stay accounted, with the Burst Queue left. -/
theorem State.dataKeeps_of_links {s t : State} (hq : s.OffQueue t) (hl : s.LinksAccounted → t.LinksAccounted) :
    s.DataKeeps t := fun ⟨hlinks, hbursts⟩ => by
  refine ⟨⟨hl hlinks, ?_⟩, Nat.le_of_eq (congrArg List.length hq.bursts.symm)⟩
  rw [State.BurstsAccounted, hq.bursts, hq.timer]
  exact hbursts

theorem State.dataKeeps_setLink {s : State} {l : LinkNo} {k : Link} (hk : (look s.links l).Accounted → k.Accounted) :
    s.DataKeeps (s.setLink l k) :=
  State.dataKeeps_of_links (s.offQueue_setLink l k) fun h => State.linksAccounted_setLink h (hk (h l))

theorem State.dataKeeps_grantAll (s : State) : s.DataKeeps s.grantAll := fun h => by
  refine State.grantAll_induction (P := fun u => u.DataAccounted ∧ s.bursts.length ≤ u.bursts.length) ?_
    ⟨h, Nat.le_refl _⟩
  rintro u l ⟨⟨hlinks, hbursts⟩, hle⟩ hg
  obtain ⟨hbursts', hle'⟩ := hbursts.doGrant hg
  exact ⟨⟨hlinks.doGrant l, hbursts'⟩, hle.trans hle'⟩

theorem State.dataKeeps_truncate (s : State) (l : LinkNo) (c : Channel) : s.DataKeeps (s.truncate l c) :=
  State.dataKeeps_of_links (s.offClaims_truncate l c).offQueue fun h => h.truncate l c

/-- A receiver may count a fault. -/
theorem Link.Accounted.count {k : Link} (h : k.Accounted) (n : LinkCounter) : (k.count n).Accounted := h

/-- A good header ends a run of errors (R123). -/
theorem Link.Accounted.errorRun_zero {k : Link} (h : k.Accounted) : ({ k with errorRun := 0 } : Link).Accounted := by
  obtain ⟨hlength, hhead, hlocked, hsingle, hgood, _, hseeking, _, henable⟩ := h
  exact ⟨hlength, hhead, hlocked, hsingle, hgood, Nat.zero_le _, hseeking, fun _ => Nat.zero_lt_succ 7, henable⟩

theorem State.dataKeeps_offerSegment (s : State) {l : LinkNo} (hl : (look s.links l).state = .locked) (g : Segment) :
    s.DataKeeps (s.offerSegment l g) := by
  by_cases hlength : (look s.links l).fifo.length < 4
  · by_cases hempty : (look s.links l).fifo = []
    · simp only [State.offerSegment]
      rw [if_pos hlength, if_pos (List.isEmpty_iff.mpr hempty)]
      cases hk : g.kind with
      | line =>
        refine State.DataKeeps.trans (State.dataKeeps_setLink fun h => h.withFifo hl ?_ ?_) (State.dataKeeps_grantAll _)
        · exact Nat.le_add_left 1 3
        · simp [hk]
      | openFrame => exact State.dataKeeps_of_links (s.offQueue_processOpen l g) fun h => h.processOpen hl g
      | closeFrame => exact State.dataKeeps_of_links (s.offQueue_processClose l g) fun h => h.processClose l g
    · rw [State.offerSegment_joins (List.length_pos_iff.mpr hempty) hlength]
      refine State.dataKeeps_setLink fun h => h.withFifo hl ?_ ?_
      · rw [List.length_append, List.length_singleton]
        exact hlength
      · rw [List.head?_append_of_ne_nil _ hempty]
        exact h.2.1
  · have hfull : 4 ≤ (look s.links l).fifo.length := Nat.le_of_not_lt hlength
    have hcount : s.DataKeeps (s.countLink l .overrun) := State.dataKeeps_setLink fun h => h.count .overrun
    by_cases hmarks : g.kind ≠ .line ∨ s.context? l ((look s.links l).contextOf g) = none ∨
        (look s.links l).frameEdgeWaits ((look s.links l).contextOf g) = true
    · rw [State.offerSegment_overrun hfull hmarks]
      exact hcount
    · obtain ⟨hk, hcontext, hedge⟩ : g.kind = .line ∧ s.context? l ((look s.links l).contextOf g) ≠ none ∧
          ¬ (look s.links l).frameEdgeWaits ((look s.links l).contextOf g) = true := by
        simpa only [not_or, not_not, ne_eq] using hmarks
      obtain ⟨f, hf⟩ := Option.ne_none_iff_exists'.mp hcontext
      rw [State.offerSegment_overrun_marks hfull hk hf hedge]
      refine hcount.trans (State.dataKeeps_of_links (State.offQueue_setContext _ l _ _) fun h =>
        h.offContexts (State.offContexts_setContext _ l _ _) fun m d hd => ?_)
      rw [State.context?_setContext] at hd
      split_ifs at hd with hmd
      · obtain ⟨rfl, rfl⟩ := hmd
        rw [State.context?_countLink, hf]
        exact .inl (by simp)
      · exact .inl hd

theorem State.dataKeeps_lockedGood (s : State) {l : LinkNo} (hl : (look s.links l).state = .locked) (g : Segment) :
    s.DataKeeps (s.lockedGood l g) :=
  (State.dataKeeps_setLink fun h => h.errorRun_zero).trans
    (State.dataKeeps_offerSegment _ (by rw [State.setLink_links, look_put_same]; exact hl) g)

/-- A receiver that is emptied is accounted (R123, R136). -/
theorem State.dataKeeps_emptied {s t : State} {l : LinkNo} (ht : t = s.truncateAll l) {k : Link}
    (hcontexts : k.contexts = (look t.links l).contexts) (hfifo : k.fifo = [])
    (hruns : k.goodRun ≤ 4 ∧ k.errorRun ≤ 8 ∧ (k.state = .seeking → k.goodRun < 4) ∧ (k.state = .locked → k.errorRun < 8))
    (henable : k.enable = true ↔ k.state ≠ .disabled) : (∀ m, m ≠ l → (look s.links m).Accounted) → s.BurstsAccounted →
      (t.setLink l k).DataAccounted ∧ s.bursts.length ≤ (t.setLink l k).bursts.length := by
  intro hothers hbursts
  have hq : s.OffQueue t := by rw [ht]; exact (s.offClaims_truncateAll l).offQueue
  have hlinks := s.links_truncateAll l
  have hidle (c : Channel) : look k.contexts c = none := by
    have hcontext := s.context?_truncateEach l l (List.finRange 16) c
    rw [← State.truncateAll_eq, ← ht, if_pos ⟨rfl, List.mem_finRange c⟩] at hcontext
    rw [hcontexts]
    exact hcontext
  rw [← ht] at hlinks
  refine ⟨⟨fun m => ?_, ?_⟩, Nat.le_of_eq (congrArg List.length hq.bursts.symm)⟩
  · rw [State.setLink_links, look_put]
    split_ifs with hm
    · exact Link.accounted_of_empty hfifo hidle hruns henable
    · rw [hlinks.1 m (Ne.symm hm)]
      exact hothers m (Ne.symm hm)
  · rw [State.BurstsAccounted, State.setLink_bursts, State.setLink_timer, hq.bursts, hq.timer]
    exact hbursts

/-- An enabled link is not DISABLED. -/
theorem Link.Accounted.enable_iff {k : Link} (h : k.Accounted) : k.enable = true ↔ k.state ≠ .disabled := by
  obtain ⟨_, _, _, _, _, _, _, _, henable⟩ := h
  exact henable

theorem State.dataKeeps_lockedError (s : State) {l : LinkNo} (hl : (look s.links l).state = .locked) :
    s.DataKeeps (s.lockedError l) := by
  intro ⟨hlinks, hbursts⟩
  obtain ⟨hlength, hhead, hlocked, hsingle, hgood, herror, hseeking, hrun, henable⟩ := hlinks l
  by_cases hbelow : (look s.links l).errorRun + 1 < 8
  · rw [State.lockedError_below hbelow]
    exact State.dataKeeps_setLink (fun _ => ⟨hlength, hhead, hlocked, hsingle, hgood, hbelow.le, hseeking, fun _ => hbelow,
      henable⟩) ⟨hlinks, hbursts⟩
  · rw [State.lockedError_eighth (Nat.le_of_not_lt hbelow)]
    obtain ⟨u, hu⟩ : ∃ u, u = s.setLink l
      { (look s.links l).count .header with errorRun := (look s.links l).errorRun + 1 } := ⟨_, rfl⟩
    have hself : look u.links l = { (look s.links l).count .header with errorRun := (look s.links l).errorRun + 1 } := by
      rw [hu]; exact look_put_same _ _ _
    have hlink := (u.links_truncateAll l).2.1
    have hothers (m : LinkNo) (hm : m ≠ l) : (look u.links m).Accounted := by
      rw [hu, State.setLink_links, look_put_ne _ _ (Ne.symm hm)]
      exact hlinks m
    have hub : u.BurstsAccounted := by rw [hu]; exact hbursts
    have hlen : u.bursts = s.bursts := by rw [hu]; rfl
    rw [← hu]
    simp only [State.loseLock]
    obtain ⟨v, hv⟩ : ∃ v, v = u.truncateAll l := ⟨_, rfl⟩
    rw [← hv] at hlink ⊢
    have hrun8 : (look v.links l).errorRun ≤ 8 := by
      rw [hlink, hself]
      exact hrun hl
    have hon : (look v.links l).enable = true := by
      rw [hlink, hself]
      exact henable.mpr (by rw [hl]; decide)
    have hemptied := State.dataKeeps_emptied (k := { look v.links l with
        state := .seeking, goodRun := 0, fifo := [], attention := true }) hv rfl rfl
      ⟨Nat.zero_le _, hrun8, fun _ => Nat.zero_lt_succ 3, fun h => by cases h⟩ ⟨fun _ h => LinkState.noConfusion h, fun _ => hon⟩ hothers hub
    obtain ⟨hdata, hle⟩ := hemptied
    obtain ⟨hdata', hle'⟩ := State.dataKeeps_grantAll _ hdata
    rw [← hlen]
    exact ⟨hdata', hle.trans hle'⟩

end Sys2Proof.Machine

/-! SUPPORT. The accounts of the part through every event (R57, R78, R120, R125, R147, R148, R171, R172). -/

namespace Sys2Proof.Machine

/-! ## The accounts by what writes them -/

/-- The frame in progress and the Command Queue are accounted. -/
def State.PortAccounted (s : State) : Prop :=
  (∀ request, s.frame = .inProgress request → requestIncomplete request = true) ∧ s.commandQueue.length ≤ 16

/-- The Response Queue and the operation in flight are accounted. -/
def State.RoomAccounted (s : State) : Prop := s.responses.length + s.reserved ≤ 32 ∧ s.EngineAccounted

theorem State.accounted_iff {s : State} : s.Accounted ↔ s.PortAccounted ∧ s.RoomAccounted ∧ s.DataAccounted :=
  ⟨fun ⟨hframe, hroom, hqueue, hengine, hlength, htimer, hlinks⟩ =>
    ⟨⟨hframe, hqueue⟩, ⟨hroom, hengine⟩, hlinks, hlength, htimer⟩,
   fun ⟨⟨hframe, hqueue⟩, ⟨hroom, hengine⟩, hlinks, hlength, htimer⟩ =>
    ⟨hframe, hroom, hqueue, hengine, hlength, htimer, hlinks⟩⟩

/-- The operation in flight, by the kind of engine state. -/
theorem State.engineAccounted_idle {s : State} (h : s.engine = .idle) : s.EngineAccounted ↔ s.reserved = 0 := by
  simp only [State.EngineAccounted, h]

theorem State.engineAccounted_scan {s : State} {op : ScanOperation} (h : s.engine = .scan op) :
    s.EngineAccounted ↔ s.reserved = 1 ∧ op.request.command.scans = true ∧
      (op.source = .prioritySlot ∨ (op.source = .commandQueue ∧ s.backup = none)) := by
  simp only [State.EngineAccounted, h]

theorem State.engineAccounted_fence {s : State} {op : FenceOperation} (h : s.engine = .fence op) :
    s.EngineAccounted ↔ s.reserved = 1 ∧ awaiting op.awaited = true ∧ op.awaited.length ≤ s.bursts.length := by
  simp only [State.EngineAccounted, h]

/-- The operation in flight stays accounted while no burst leaves. -/
theorem State.EngineAccounted.congr {s t : State} (h : s.EngineAccounted) (he : t.engine = s.engine)
    (hr : t.reserved = s.reserved) (hb : s.backup = none → t.backup = none) (hl : s.bursts.length ≤ t.bursts.length) :
    t.EngineAccounted := by
  cases hs : s.engine with
  | idle => exact (State.engineAccounted_idle (he.trans hs)).mpr (hr.trans ((State.engineAccounted_idle hs).mp h))
  | scan op =>
    obtain ⟨hreserved, hscans, hsource⟩ := (State.engineAccounted_scan hs).mp h
    exact (State.engineAccounted_scan (he.trans hs)).mpr
      ⟨hr.trans hreserved, hscans, hsource.imp_right fun hsource => ⟨hsource.1, hb hsource.2⟩⟩
  | fence op =>
    obtain ⟨hreserved, hawaiting, hlength⟩ := (State.engineAccounted_fence hs).mp h
    exact (State.engineAccounted_fence (he.trans hs)).mpr ⟨hr.trans hreserved, hawaiting, hlength.trans hl⟩

/-! ## The data path -/

/-- What the data path writes keeps the accounts. -/
theorem State.Accounted.dataPath {s t : State} (h : s.Accounted) (ho : s.OffFrames t) (hd : s.DataKeeps t) : t.Accounted := by
  obtain ⟨⟨hframe, hqueue⟩, ⟨hroom, hengine⟩, hdata⟩ := State.accounted_iff.mp h
  obtain ⟨hdata', hle⟩ := hd hdata
  have hframe' : t.frame = s.frame := by rw [ho]
  have hqueue' : t.commandQueue = s.commandQueue := by rw [ho]
  have hresponses : t.responses = s.responses := by rw [ho]
  have hreserved : t.reserved = s.reserved := by rw [ho]
  have hbackup : t.backup = s.backup := by rw [ho]
  have hengine' : t.engine = s.engine := by rw [ho]
  refine State.accounted_iff.mpr ⟨⟨?_, ?_⟩, ⟨?_, ?_⟩, hdata'⟩
  · rw [hframe']; exact hframe
  · rw [hqueue']; exact hqueue
  · rw [hresponses, hreserved]; exact hroom
  · exact hengine.congr hengine' hreserved (fun hn => hbackup.trans hn) hle

/-! ## An operation that is in service -/

/-- One entry is reserved for the operation that runs, whatever the engine state (R46, R57). -/
def State.InService (s : State) : Prop :=
  s.PortAccounted ∧ s.responses.length + 1 ≤ 32 ∧ s.reserved = 1 ∧ s.DataAccounted

theorem State.InService.post {s : State} (h : s.InService) (r : Response) : (s.post r).Accounted := by
  obtain ⟨hport, hroom, hreserved, hdata⟩ := h
  have hzero : (s.post r).reserved = 0 := by rw [State.post, hreserved]
  refine State.accounted_iff.mpr ⟨hport, ⟨?_, (State.engineAccounted_idle rfl).mpr hzero⟩, hdata⟩
  rw [hzero, State.post_responses, List.length_append, List.length_singleton]
  exact hroom

theorem State.InService.dropped {s : State} (h : s.InService) : s.dropped.Accounted := by
  obtain ⟨hport, hroom, hreserved, hdata⟩ := h
  have hzero : s.dropped.reserved = 0 := by rw [State.dropped, hreserved]
  refine State.accounted_iff.mpr ⟨hport, ⟨?_, (State.engineAccounted_idle rfl).mpr hzero⟩, hdata⟩
  rw [hzero, State.dropped_responses]
  exact Nat.le_of_succ_le hroom

theorem State.InService.finish {s : State} (h : s.InService) (r : CommandRecord) (status : Status) (payload : Payload)
    (found : Option Handle) : (s.finish r status payload found).Accounted := h.post _

/-- A scan in service is accounted (R45, R47). -/
theorem State.InService.scan {s : State} (h : s.InService) {op : ScanOperation} (hscans : op.request.command.scans = true)
    (hsource : op.source = .prioritySlot ∨ (op.source = .commandQueue ∧ s.backup = none)) :
    ({ s with engine := .scan op } : State).Accounted := by
  obtain ⟨hport, hroom, hreserved, hdata⟩ := h
  refine State.accounted_iff.mpr ⟨hport, ⟨?_, (State.engineAccounted_scan rfl).mpr ⟨hreserved, hscans, hsource⟩⟩, hdata⟩
  rw [hreserved]
  exact hroom

/-- A fence in service that waits for a queued burst is accounted (R50). -/
theorem State.InService.fence {s : State} (h : s.InService) {op : FenceOperation} (hwaits : awaiting op.awaited = true)
    (hlength : op.awaited.length ≤ s.bursts.length) : ({ s with engine := .fence op } : State).Accounted := by
  obtain ⟨hport, hroom, hreserved, hdata⟩ := h
  refine State.accounted_iff.mpr ⟨hport, ⟨?_, (State.engineAccounted_fence rfl).mpr ⟨hreserved, hwaits, hlength⟩⟩, hdata⟩
  rw [hreserved]
  exact hroom

theorem State.InService.completeFence {s : State} (h : s.InService) (op : FenceOperation) :
    (s.completeFence op).Accounted := by
  unfold State.completeFence
  split
  · exact h.post _
  · unfold State.completeCommit
    split
    · exact State.InService.post (s := { State.setPlacement s _ _ with pool := _ }) h _
    · exact h.dropped
  · unfold State.completeRelease
    split
    · split
      · exact State.InService.post (s := { s with records := _, pool := _, commitSet := _, expirySet := _ }) h _
      · exact h.dropped
    · exact h.dropped

theorem State.InService.startFence {s : State} (h : s.InService) {op : FenceOperation}
    (hlength : op.awaited.length ≤ s.bursts.length) : (s.startFence op).Accounted := by
  unfold State.startFence
  split
  · next hwaits => exact h.fence hwaits hlength
  · exact h.completeFence op

/-- A start takes no more than it finds out of the Command Queue (R79). -/
theorem State.length_commandQueue_begun (s : State) (x : Source) (q : Request) :
    (s.begun x q).commandQueue.length ≤ s.commandQueue.length := by
  unfold State.begun
  cases x with
  | commandQueue =>
    cases s.backup with
    | none => exact (List.length_tail (l := s.commandQueue)).trans_le (Nat.sub_le _ _)
    | some _ => exact Nat.le_refl _
  | prioritySlot => exact Nat.le_refl _
  | releaseSet | commitSet | expirySet => cases q <;> exact Nat.le_refl _

/-- A start that the arbiter takes is in service (R46, R57). -/
theorem State.Starts.inService {s : State} {x : Source} {q : Request} (hs : s.Starts x q) (h : s.Accounted) :
    (s.begun x q).InService := by
  obtain ⟨⟨hframe, hqueue⟩, ⟨_, hengine⟩, hdata⟩ := State.accounted_iff.mp h
  obtain ⟨hidle, hroom, _⟩ := hs
  have hzero : s.reserved = 0 := (State.engineAccounted_idle hidle).mp hengine
  rw [State.InService, State.PortAccounted]
  refine ⟨⟨?_, (s.length_commandQueue_begun x q).trans hqueue⟩, ?_, ?_, ?_⟩
  all_goals rw [State.begun_frame]
  · exact hframe
  · rw [hzero] at hroom
    exact hroom
  · exact congrArg (· + 1) hzero
  · exact hdata

end Sys2Proof.Machine

/-! SUPPORT. Every step keeps the accounts: event by event (R57, R78, R120, R125, R147, R148, R171, R172). -/

namespace Sys2Proof.Machine

/-! ## The management port -/

/-- A scan that is cancelled gives up its reservation (R55). -/
theorem State.Accounted.preempt {s : State} (h : s.Accounted) (r : CommandRecord) : (s.preempt r).Accounted := by
  cases he : s.engine with
  | idle => simp only [State.preempt, he]; exact h
  | fence op => simp only [State.preempt, he]; exact h
  | scan op =>
    simp only [State.preempt, he]
    split
    · obtain ⟨hport, ⟨hroom, hengine⟩, hdata⟩ := State.accounted_iff.mp h
      have hzero : (s.cancelScan op).reserved = 0 := by
        rw [State.cancelScan, ((State.engineAccounted_scan he).mp hengine).1]
      refine State.accounted_iff.mpr ⟨hport, ⟨?_, (State.engineAccounted_idle rfl).mpr hzero⟩, hdata⟩
      rw [hzero]
      exact (Nat.le_add_right _ _).trans hroom
    · exact h

/-- A frame whose request part is not whole, or that is in its reply part, is accounted (R171). -/
theorem State.Accounted.withFrame {s : State} (h : s.Accounted) {f : PortFrame}
    (hf : ∀ request, f = .inProgress request → requestIncomplete request = true) : (s.withFrame f).Accounted := by
  obtain ⟨⟨_, hqueue⟩, hrest⟩ := State.accounted_iff.mp h
  exact State.accounted_iff.mpr ⟨⟨hf, hqueue⟩, hrest⟩

/-- What a port effect writes beside the frame: the accounts are kept. -/
theorem State.Accounted.portEffect {s u : State} (h : s.Accounted) (he : s.PortEffect u) : u.Accounted := by
  obtain ⟨⟨hframe, hqueue⟩, ⟨hroom, hengine⟩, hdata⟩ := State.accounted_iff.mp h
  cases he with
  | answer bytes => exact h
  | push r room =>
    refine State.accounted_iff.mpr ⟨⟨hframe, ?_⟩, ⟨hroom, hengine⟩, hdata⟩
    rw [State.answerCode_commandQueue, List.length_append, List.length_singleton]
    exact room
  | priority r =>
    have h' : ({ s with prioritySlot := some r } : State).Accounted := h
    exact h'.preempt r
  | withdraw bytes => exact h
  | flush => exact State.accounted_iff.mpr ⟨⟨hframe, Nat.zero_le _⟩, ⟨hroom, hengine.congr rfl rfl (fun _ => rfl) (Nat.le_refl _)⟩, hdata⟩
  | pop r rest bytes filled =>
    refine State.accounted_iff.mpr ⟨⟨hframe, hqueue⟩, ⟨?_, hengine⟩, hdata⟩
    rw [filled, List.length_cons] at hroom
    change rest.length + s.reserved ≤ 32
    omega
  | status bytes => exact h
  | link l bytes =>
    exact State.accounted_iff.mpr ⟨⟨hframe, hqueue⟩, ⟨hroom, hengine⟩,
      (State.dataKeeps_setLink (k := { look s.links l with attention := false }) id hdata).1⟩
  | framestore bytes => exact h
  | controls mask gate mark => exact h
  | tableReset =>
    refine State.accounted_iff.mpr ⟨⟨hframe, Nat.zero_le _⟩, ⟨Nat.zero_le _, rfl⟩, fun l => ?_, Nat.zero_le _, ?_⟩
    · have hlink : look (s.tableReset.answerCode .accepted).links l = (look s.links l).tableReset :=
        s.look_links_tableReset l
      obtain ⟨_, _, _, _, hruns, hruns', hseeking, hlocked, henable⟩ := hdata.1 l
      rw [hlink]
      exact Link.accounted_of_empty rfl (fun c => look_replicate none c) ⟨hruns, hruns', hseeking, hlocked⟩ henable
    · simp [State.tableReset, State.answerCode, State.answer]

/-! ## CONFIGURE-LINK (R136) -/

theorem State.dataKeeps_configureLink (s : State) (l : LinkNo) (enable single : Bool) (z : PixelSize) :
    s.DataKeeps (s.configureLink l enable single z) := by
  intro ⟨hlinks, hbursts⟩
  obtain ⟨hlength, hhead, hlocked, hsingle, hgood, herror, hseeking, hrun, henable⟩ := hlinks l
  by_cases hempty : (look s.links l).emptiedBy enable single z = true
  · rw [State.configureLink_emptied hempty]
    obtain ⟨v, hv⟩ : ∃ v, v = s.truncateAll l := ⟨_, rfl⟩
    rw [← hv]
    refine State.dataKeeps_emptied hv rfl rfl ⟨Nat.zero_le _, Nat.zero_le _, fun _ => Nat.zero_lt_succ 3,
      fun _ => Nat.zero_lt_succ 7⟩ ?_ (fun m _ => hlinks m) hbursts
    cases enable <;> simp
  · cases hstate : (look s.links l).state with
    | disabled =>
      obtain ⟨hfifo, hframes⟩ := hlocked (by rw [hstate]; decide)
      cases enable with
      | false =>
        rw [State.configureLink_disabled_off single z hstate]
        exact State.dataKeeps_setLink (fun _ => Link.accounted_of_empty hfifo hframes
          ⟨hgood, herror, hseeking, hrun⟩ (by simp [hstate])) ⟨hlinks, hbursts⟩
      | true =>
        rw [State.configureLink_disabled_on single z hstate]
        exact State.dataKeeps_setLink (fun _ => Link.accounted_of_empty hfifo hframes
          ⟨Nat.zero_le _, Nat.zero_le _, fun _ => Nat.zero_lt_succ 3, fun _ => Nat.zero_lt_succ 7⟩ (by simp))
          ⟨hlinks, hbursts⟩
    | seeking | locked =>
      have hon : (look s.links l).state ≠ .disabled := by rw [hstate]; decide
      obtain ⟨he, hc⟩ := not_or.mp fun he => hempty (Link.emptiedBy_iff.mpr ⟨hon, he⟩)
      obtain rfl : enable = true := Bool.eq_true_of_not_eq_false he
      obtain ⟨hsame, _⟩ := not_or.mp (mt Link.changes_iff.mpr hc)
      rw [State.configureLink_unchanged hon hc, ← not_not.mp hsame]
      exact State.dataKeeps_setLink (fun _ => ⟨hlength, hhead, hlocked, hsingle, hgood, herror, hseeking, hrun,
        fun _ => hon, fun _ => rfl⟩) ⟨hlinks, hbursts⟩

theorem State.offFrames_configureLink (s : State) (l : LinkNo) (enable single : Bool) (z : PixelSize) :
    s.OffFrames (s.configureLink l enable single z) := by
  by_cases hempty : (look s.links l).emptiedBy enable single z = true
  · rw [State.configureLink_emptied hempty]
    exact (s.offFrames_truncateAll l).trans (State.offFrames_setLink _ l _)
  · obtain ⟨_, _, _, hk⟩ := State.configureLink_kept hempty
    rw [hk]
    exact s.offFrames_setLink l _

/-- What the data path writes leaves an operation in service. -/
theorem State.InService.dataPath {s t : State} (h : s.InService) (ho : s.OffFrames t) (hd : s.DataKeeps t) : t.InService := by
  obtain ⟨⟨hframe, hqueue⟩, hroom, hreserved, hdata⟩ := h
  have hframe' : t.frame = s.frame := by rw [ho]
  have hqueue' : t.commandQueue = s.commandQueue := by rw [ho]
  have hresponses : t.responses = s.responses := by rw [ho]
  have hreserved' : t.reserved = s.reserved := by rw [ho]
  refine ⟨⟨?_, ?_⟩, ?_, hreserved'.trans hreserved, (hd hdata).1⟩
  · rw [hframe']; exact hframe
  · rw [hqueue']; exact hqueue
  · rw [hresponses]; exact hroom

theorem State.InService.completeConfigureLink {s : State} (h : s.InService) (r : CommandRecord) (l : LinkNo)
    (enable single : Bool) (z : PixelSize) : (s.completeConfigureLink r l enable single z).Accounted := by
  have hfinish := (h.dataPath (s.offFrames_configureLink l enable single z) (s.dataKeeps_configureLink l enable single z)).post
    (.result r.tag r.command.code .ok (r.command.namedHandle <|> none)
      (.linkConfigured l enable single z (look (s.configureLink l enable single z).links l).state))
  simp only [State.completeConfigureLink]
  split
  · exact hfinish.dataPath (State.offFrames_grantAll _) (State.dataKeeps_grantAll _)
  · exact hfinish

/-! ## Starts -/

/-- A drain writes tables only. -/
theorem State.InService.drain {s : State} (h : s.InService) (i : RecordNo) (p : Placement) (cause : DrainCause)
    (abort : Bool) : (s.drain i p cause abort).InService := by
  unfold State.drain
  split
  · exact h
  · split
    · exact h
    · exact h

/-- A start of a host command leaves the back-up entry empty where it came from the Command Queue (R79). -/
theorem State.Starts.source_begun {s : State} {x : Source} {r : CommandRecord} (hs : s.Starts x (.command r)) :
    x = .prioritySlot ∨ (x = .commandQueue ∧ (s.begun x (.command r)).backup = none) := by
  rcases State.source_of_offer_command hs.offered with rfl | rfl
  · exact .inl rfl
  · refine .inr ⟨rfl, ?_⟩
    by_cases hb : s.backup = none
    · rw [State.begun_queue hb]; exact hb
    · rw [State.begun_backup hb]

theorem State.InService.hostRun {u t : State} {x : Source} {r : CommandRecord} (h : u.InService)
    (hx : x = .prioritySlot ∨ (x = .commandQueue ∧ u.backup = none)) (run : u.HostRun x r t) : t.Accounted := by
  have hscan {position : ScanPosition} (hscans : r.command.scans = true) : (u.enterScan x r position).Accounted :=
    h.scan (op := { source := x, request := r, position := position }) hscans hx
  cases run with
  | completes status payload found => exact h.finish r status payload found
  | create p kind passed => exact hscan (by rw [kind]; rfl)
  | amend p kind passed => exact hscan (by rw [kind]; rfl)
  | definePlane p kind passed => exact hscan (by rw [kind]; rfl)
  | attributes i b p used =>
    have h' : (u.setPlacement i (b.withAttributes p)).InService := h
    exact h'.finish r _ _ _
  | retire i b abort payload used live => exact (h.drain i b .retire abort).finish r _ _ _
  | configureLink l enable single z free => exact h.completeConfigureLink r l enable single z
  | timeout n payload =>
    have h' : ({ u with ackTimeout := n } : State).InService := h
    exact h'.finish r _ _ _
  | levels ls payload =>
    have h' : ({ u with levels := ls } : State).InService := h
    exact h'.finish r _ _ _
  | recordCounters i b payload used =>
    have h' : (u.setPlacement i { b with counters := RecordCounters.zero }).InService := h
    exact h'.finish r _ _ _
  | linkCounters l payload =>
    have h' : (u.setLink l { look u.links l with counters := Vector.replicate 8 0 }).InService :=
      h.dataPath (u.offFrames_setLink l _) (State.dataKeeps_setLink id)
    exact h'.finish r _ _ _
  | portCounters payload =>
    have h' : ({ u with fsRefused := 0, fsTimeout := 0 } : State).InService := h
    exact h'.finish r _ _ _
  | sync kind => exact h.startFence (by rw [List.length_map])

theorem State.InService.internalRun {u t : State} {i : RecordNo} {x : Source} (h : u.InService)
    (run : u.InternalRun i x t) : t.Accounted := by
  cases run with
  | dropped => exact h.dropped
  | expire p used due =>
    unfold State.expire
    split
    · exact (h.drain i p .silence true).post _
    · exact h.post _
  | commit p used => exact h.startFence (by rw [State.tagged, List.length_map])
  | release p used => exact h.startFence (by rw [State.tagged, List.length_map])

/-! ## Scans -/

/-- An operation in flight is in service (R45, R57). -/
theorem State.Accounted.inService {s : State} (h : s.Accounted) (hr : s.reserved = 1) : s.InService := by
  obtain ⟨hport, ⟨hroom, _⟩, hdata⟩ := State.accounted_iff.mp h
  exact ⟨hport, by rwa [hr] at hroom, hr, hdata⟩

theorem State.InService.takeFlip {s : State} (h : s.InService) (i : RecordNo) : (s.takeFlip i).InService :=
  h.dataPath (s.offFrames_takeFlip i) (State.dataKeeps_of_links (s.offQueue_takeFlip i) fun hl => by
    rw [State.LinksAccounted, State.links_takeFlip]
    exact hl)

/-- The accounts do not read the tables: a state that differs in the table side alone is in service too. -/
theorem State.InService.completeScan {s : State} (h : s.InService) (r : CommandRecord) : (s.completeScan r).Accounted := by
  have hplaced (i : RecordNo) (x : SlotLetter) (ds : List DestDesc) (p : Placement) :
      ((s.allocate i x ds).setPlacement i p).InService := h
  unfold State.completeScan
  split
  · unfold State.completeCreate
    split
    · have h' (i : RecordNo) (ds : List DestDesc) (p : Placement) (keys : Vector (Option RecordNo) 96) :
          ({ (s.allocate i .a ds).setPlacement i p with keyIndex := keys } : State).InService := h
      exact (h' _ _ _ _).finish r _ _ _
    · exact h.dropped
  · unfold State.completeAmend
    split
    · exact h.dropped
    · split
      · exact h.dropped
      · simp only
        split
        · exact ((hplaced _ _ _ _).takeFlip _).finish r _ _ _
        · exact (hplaced _ _ _ _).finish r _ _ _
  · unfold State.completeDefinePlane
    split
    · exact h.dropped
    · next q _ =>
      have h' (planes : Vector (Option Plane) 4) : ({ s with planes := planes } : State).InService := h
      exact (h' _).finish r _ _ _
  all_goals exact h.dropped

theorem State.Accounted.stepScan {s : State} (h : s.Accounted) {op : ScanOperation} (he : s.engine = .scan op) :
    (s.stepScan op).Accounted := by
  obtain ⟨_, ⟨_, hengine⟩, _⟩ := State.accounted_iff.mp h
  obtain ⟨hreserved, hscans, hsource⟩ := (State.engineAccounted_scan he).mp hengine
  have hservice := h.inService hreserved
  unfold State.stepScan
  split
  · next status payload _ =>
    have h' : ({ s with draws := s.draws + 1 } : State).InService := hservice
    exact h'.finish _ _ _ _
  · exact hservice.scan hscans hsource
  · exact hservice.completeScan op.request

/-! ## Departures -/

theorem State.BurstsAccounted.departed {s : State} (h : s.BurstsAccounted) : s.departed.BurstsAccounted := by
  obtain ⟨hlength, _⟩ := h
  have htail : s.bursts.tail.length ≤ 32 := by
    rw [List.length_tail]
    exact (Nat.sub_le _ _).trans hlength
  cases hb : s.bursts.tail with
  | nil => simp only [State.departed, hb]; exact ⟨Nat.zero_le _, by simp⟩
  | cons b rest =>
    rw [hb] at htail
    simp only [State.departed, hb]
    exact ⟨htail, by simp⟩

theorem State.departed_bursts (s : State) : s.departed.bursts = s.bursts.tail := by rw [State.departed_frame]

theorem State.Accounted.depart {s : State} (h : s.Accounted) : s.depart.Accounted := by
  obtain ⟨hport, ⟨hroom, hengine⟩, hlinks, hbursts⟩ := State.accounted_iff.mp h
  have hport' : s.departed.PortAccounted := by rw [State.departed_frame]; exact hport
  have hlinks' : s.departed.LinksAccounted := by rw [State.departed_frame]; exact hlinks
  have hresponses : s.departed.responses = s.responses := by rw [State.departed_frame]
  have hreserved : s.departed.reserved = s.reserved := by rw [State.departed_frame]
  have hbackup : s.departed.backup = s.backup := by rw [State.departed_frame]
  have hroom' : s.departed.responses.length + s.departed.reserved ≤ 32 := by rw [hresponses, hreserved]; exact hroom
  have hdata : s.departed.DataAccounted := ⟨hlinks', hbursts.departed⟩
  cases he : s.engine with
  | idle =>
    have hno : ∀ op, s.engine ≠ .fence op := fun op hop => by rw [he] at hop; cases hop
    rw [State.depart_plain hno]
    refine State.accounted_iff.mpr ⟨hport', ⟨hroom', ?_⟩, hdata⟩
    rw [State.engineAccounted_idle (s.departed_engine.trans he), hreserved]
    exact (State.engineAccounted_idle he).mp hengine
  | scan op =>
    have hno : ∀ op', s.engine ≠ .fence op' := fun op' hop => by rw [he] at hop; cases hop
    rw [State.depart_plain hno]
    refine State.accounted_iff.mpr ⟨hport', ⟨hroom', ?_⟩, hdata⟩
    rw [State.engineAccounted_scan (s.departed_engine.trans he), hreserved, hbackup]
    exact (State.engineAccounted_scan he).mp hengine
  | fence op =>
    obtain ⟨hone, _, hlength⟩ := (State.engineAccounted_fence he).mp hengine
    have hservice : s.departed.InService := by
      refine ⟨hport', ?_, hreserved.trans hone, hdata⟩
      rw [hreserved, hone] at hroom'
      exact hroom'
    by_cases hwaits : awaiting op.awaited.tail = true
    · rw [State.depart_waits he hwaits]
      refine hservice.fence (op := { op with awaited := op.awaited.tail }) hwaits ?_
      rw [State.departed_bursts, List.length_tail, List.length_tail]
      exact Nat.sub_le_sub_right hlength 1
    · rw [State.depart_ends he (Bool.eq_false_iff.mpr hwaits)]
      exact hservice.completeFence op

/-! ## Every event -/

theorem State.Accounted.event {s t : State} (h : s.Accounted) (he : s.Event t) : t.Accounted := by
  cases he with
  | nothing => exact h
  | powerOn =>
    refine State.accounted_fresh s.pending s.draws fun request hr => ?_
    cases hf : s.frame <;> rw [hf] at hr <;> cases hr
  | frame f short => exact h.withFrame short
  | transaction u effect => exact (h.portEffect effect).withFrame fun _ hr => PortFrame.noConfusion hr
  | host x r t starts run => exact (starts.inService h).hostRun starts.source_begun run
  | internal x i t starts run => exact (starts.inService h).internalRun run
  | scan op inFlight => exact h.stepScan inFlight
  | departure how answers =>
    have hcounted : (s.countDeparture how).Accounted := by
      cases how <;> exact h
    exact hcounted.depart.dataPath (State.offFrames_grantAll _) (State.dataKeeps_grantAll _)
  | seek l good seeking =>
    refine h.dataPath (s.offFrames_setLink l _) (State.dataKeeps_setLink fun hk => ?_)
    obtain ⟨_, _, hlocked, _, hgood, herror, hseeking, _, henable⟩ := hk
    obtain ⟨hfifo, hframes⟩ := hlocked (by rw [seeking]; decide)
    have hon : (look s.links l).enable = true := henable.mpr (by rw [seeking]; decide)
    have hrun := hseeking seeking
    cases good with
    | false =>
      exact Link.accounted_of_empty hfifo hframes ⟨Nat.zero_le _, herror, fun _ => Nat.zero_lt_succ 3,
        fun hl => by rw [show (Link.seek _ false).state = _ from seeking] at hl; cases hl⟩ henable
    | true =>
      by_cases hbelow : (look s.links l).goodRun + 1 < 4
      · rw [Link.seek_good_below hbelow]
        exact Link.accounted_of_empty hfifo hframes ⟨hrun, herror, fun _ => hbelow,
          fun hl => by rw [seeking] at hl; cases hl⟩ henable
      · rw [Link.seek_good_fourth (by omega)]
        exact Link.accounted_of_empty hfifo hframes ⟨Nat.le_refl 4, Nat.zero_le _, fun hl => LinkState.noConfusion hl,
          fun _ => Nat.zero_lt_succ 7⟩ ⟨fun _ hl => LinkState.noConfusion hl, fun _ => hon⟩
  | headerError l locked => exact h.dataPath (s.offFrames_lockedError l) (s.dataKeeps_lockedError locked)
  | segment l g locked whole => exact h.dataPath (s.offFrames_lockedGood l g) (s.dataKeeps_lockedGood locked g)
  | grant => exact h.dataPath s.offFrames_grantAll s.dataKeeps_grantAll
  | abortIgnored a => exact h
  | abort a f claiming =>
    have h' : ({ s with aborts := s.aborts.erase a } : State).Accounted := h
    exact (h'.dataPath (State.offFrames_truncate _ _ _) (State.dataKeeps_truncate _ _ _)).dataPath
      (State.offFrames_grantAll _) (State.dataKeeps_grantAll _)
  | boundary =>
    have hb : s.boundary = { s with
      timebase := s.boundary.timebase, records := s.boundary.records, expirySet := s.boundary.expirySet } := rfl
    rw [hb]
    generalize s.boundary = u
    exact h

/-- A step idles, or is an event on the state with the queue's rest (R186; log 3). -/
theorem step_cases {s t : State} (h : step s = .next t) :
    t = s ∨ ∃ rest, ({ s with pending := rest } : State).Event t := by
  cases hp : s.pending with
  | nil =>
    rw [step, hp] at h
    cases h
    exact .inl rfl
  | cons c rest =>
    rw [step, hp] at h
    obtain ⟨u, hu, hevent⟩ := exec_event c { s with pending := rest }
    have heq : Host.Outcome.next u = (Host.Outcome.next t : Host.Outcome State Fault Refusal) := hu.symm.trans h
    cases heq
    exact .inr ⟨rest, hevent⟩

/-- Settles O58: by the event that the step is. -/
theorem everyStepKeepsTheAccounts : Obligations.EveryStepKeepsTheAccounts := by
  intro s t h hstep
  rcases step_cases hstep with rfl | ⟨rest, hevent⟩
  · exact h
  · have h' : ({ s with pending := rest } : State).Accounted := h
    exact h'.event hevent

end Sys2Proof.Machine

/-! SUPPORT. The data path as a path of moves: each thing it writes, one at a time, such that what holds between two moves
can be an invariant (06, 07). -/

namespace Sys2Proof.Machine

/-! ## The moves -/

/-- What the tables and the windows read of a record that is not FREE: key, slots, drain cause and claim. -/
def Placement.core (p : Placement) : Key × Option Slot × Option Slot × Option DrainCause × Option Key :=
  (p.key, p.slotA, p.slotB, p.drain, p.claim)

/-- One write of the data path. -/
inductive State.DataMove (s : State) : State → Prop where
  /-- A receiver is written but for its frames and configuration; each segment that waits was waiting, or is whole. -/
  | link (l : LinkNo) (k : Link) (contexts : k.contexts = (look s.links l).contexts)
      (single : k.single = (look s.links l).single) (pixelSize : k.pixelSize = (look s.links l).pixelSize)
      (fifo : ∀ g ∈ k.fifo, g ∈ (look s.links l).fifo ∨ g.payload.length = g.payloadLength (look s.links l).pixelSize) :
      s.DataMove (s.setLink l k)
  /-- The frame of a context ends. -/
  | endFrame (l : LinkNo) (c : Channel) (f : Frame) (n : RecordCounter) (opened : s.context? l c = some f) :
      s.DataMove (s.endFrame l c f n)
  /-- A record is heard or counted. -/
  | report (i : RecordNo) (p p' : Placement) (used : s.placement? i = some p) (core : p'.core = p.core) :
      s.DataMove (s.setPlacement i p')
  /-- A context takes a frame that claims no record. -/
  | unclaimed (l : LinkNo) (c : Channel) (f : Frame) (idle : s.context? l c = none) (none : f.phase.record? = none) :
      s.DataMove (s.setContext l c (some f))
  /-- An open frame counts a line or is marked damaged. -/
  | advance (l : LinkNo) (c : Channel) (f f' : Frame) (opened : s.context? l c = some f) (phase : f'.phase = f.phase)
      (width : f'.width = f.width) (height : f'.height = f.height) : s.DataMove (s.setContext l c (some f'))
  /-- A context takes a frame that claims the record of its key, with the flip before it. -/
  | claim (l : LinkNo) (c : Channel) (i : RecordNo) (p : Placement) (f : Frame)
      (keyed : look s.keyIndex (Key.place { link := l, channel := c }) = some i) (used : s.placement? i = some p)
      (idle : s.context? l c = none) (claims : f.claims i = true) (sized : p.nextGeometry = some (f.width, f.height)) :
      s.DataMove ((s.openAndClaim i { link := l, channel := c }).setContext l c (some f))
  /-- The bursts of the LINE at the head of a FIFO join the queue. -/
  | bursts (l : LinkNo) (g : Segment) (waits : g ∈ (look s.links l).fifo) (line : g.kind = .line) :
      s.DataMove (s.joinBursts (s.lineBursts l g))
  /-- A link is the last granted. -/
  | turn (l : LinkNo) : s.DataMove { s with lastGranted := l }
  /-- An abort request is taken. -/
  | abort (a : Abort) : s.DataMove { s with aborts := s.aborts.erase a }

/-- `t` comes of `s` by moves of the data path. -/
abbrev State.DataPath (s t : State) : Prop := Relation.ReflTransGen State.DataMove s t

/-- What every move keeps, a path keeps. -/
theorem State.DataPath.keeps {P : State → Prop} (h : ∀ s t, P s → s.DataMove t → P t) {s t : State} (hs : P s)
    (path : s.DataPath t) : P t := by
  induction path with
  | refl => exact hs
  | tail _ hmove ih => exact h _ _ ih hmove

theorem State.DataMove.path {s t : State} (h : s.DataMove t) : s.DataPath t := .single h

theorem State.dataPath_countLink (s : State) (l : LinkNo) (n : LinkCounter) : s.DataPath (s.countLink l n) :=
  State.DataMove.path (.link l _ rfl rfl rfl fun _ hg => .inl hg)

/-! ## The path of each operation -/

theorem State.dataPath_truncate (s : State) (l : LinkNo) (c : Channel) : s.DataPath (s.truncate l c) := by
  cases hf : s.context? l c with
  | none => rw [State.truncate_idle hf]
  | some f =>
    rw [State.truncate_open hf]
    exact (s.dataPath_countLink l _).tail (.endFrame l c f .damaged ((s.context?_countLink l l _ c).trans hf))

theorem State.dataPath_truncateEach (s : State) (l : LinkNo) (cs : List Channel) : s.DataPath (s.truncateEach l cs) := by
  induction cs generalizing s with
  | nil => exact .refl
  | cons c cs ih => exact (s.dataPath_truncate l c).trans (ih _)

theorem State.dataPath_truncateAll (s : State) (l : LinkNo) : s.DataPath (s.truncateAll l) :=
  s.dataPath_truncateEach l _

theorem Placement.core_heard (p : Placement) : p.heard.core = p.core := rfl

theorem Placement.core_count (p : Placement) (n : RecordCounter) : (p.count n).core = p.core := rfl

theorem State.dataPath_processOpen (s : State) (l : LinkNo) (g : Segment) : s.DataPath (s.processOpen l g) := by
  have hcases := s.processOpen_cases l g
  have hpath := s.dataPath_truncate l ((look s.links l).contextOf g)
  have hidle := s.context?_truncate l l ((look s.links l).contextOf g) ((look s.links l).contextOf g)
  rw [if_pos ⟨rfl, rfl⟩] at hidle
  simp only at hcases
  generalize (look s.links l).contextOf g = c at hcases hpath hidle
  generalize s.truncate l c = u at hcases hpath hidle
  rcases hcases with heq | ⟨i, p, hk, hp, heq | ⟨hg, heq⟩⟩
  · rw [heq]
    exact (hpath.trans (u.dataPath_countLink l _)).tail
      (.unclaimed l c _ ((u.context?_countLink l l _ c).trans hidle) rfl)
  · rw [heq]
    exact (hpath.tail (.report i p _ hp (p.heard.core_count .refused))).tail (.unclaimed l c _ hidle rfl)
  · rw [heq]
    refine (hpath.tail (.report i p _ hp p.core_heard)).tail
      (.claim l c i p.heard _ hk (State.placement?_setPlacement_same u i _) hidle ?_ hg)
    rw [Frame.claims_iff]
    cases p.hold <;> rfl

theorem State.dataPath_processClose (s : State) (l : LinkNo) (g : Segment) : s.DataPath (s.processClose l g) := by
  cases hf : s.context? l ((look s.links l).contextOf g) with
  | none => rw [State.processClose_idle rfl hf]; exact s.dataPath_countLink l _
  | some f => rw [State.processClose_open rfl hf]; exact State.DataMove.path (.endFrame l _ f _ hf)

/-- A LINE that waits is processed. -/
theorem State.dataPath_processLine (s : State) (l : LinkNo) {g : Segment} (hg : g ∈ (look s.links l).fifo)
    (hk : g.kind = .line) : s.DataPath (s.processLine l g) := by
  rcases s.processLine_cases l g with heq | ⟨f, hf, ⟨n, heq⟩ | ⟨_, heq⟩⟩
  · rw [heq]; exact s.dataPath_countLink l _
  · rw [heq]
    exact (s.dataPath_countLink l n).tail (.advance l _ f _ ((s.context?_countLink l l n _).trans hf) rfl rfl rfl)
  · rw [heq]
    refine (State.DataMove.path (.bursts l g hg hk)).tail (.advance l _ f _ ?_ rfl rfl rfl)
    rw [State.context?_congr (State.links_joinBursts s _)]
    exact hf

theorem State.dataPath_setFifo (s : State) (l : LinkNo) {gs : List Segment} (h : ∀ g ∈ gs, g ∈ (look s.links l).fifo) :
    s.DataPath (s.setLink l { look s.links l with fifo := gs }) :=
  State.DataMove.path (.link l _ rfl rfl rfl fun g hg => .inl (h g hg))

/-- The heads of a FIFO are taken from segments that wait there. -/
theorem State.dataPath_takeHeads (s : State) (l : LinkNo) {gs : List Segment}
    (h : ∀ g ∈ gs, g ∈ (look s.links l).fifo) : s.DataPath (s.takeHeads l gs) := by
  induction gs generalizing s with
  | nil => exact s.dataPath_setFifo l (by simp)
  | cons g rest ih =>
    have hrest : ∀ g ∈ rest, g ∈ (look s.links l).fifo := fun e he => h e (List.mem_cons_of_mem _ he)
    cases hk : g.kind with
    | line => simp only [State.takeHeads, hk]; exact s.dataPath_setFifo l h
    | openFrame =>
      simp only [State.takeHeads, hk]
      exact (s.dataPath_processOpen l g).trans (ih _ (by rw [State.fifo_processOpen]; exact hrest))
    | closeFrame =>
      simp only [State.takeHeads, hk]
      exact (s.dataPath_processClose l g).trans (ih _ (by rw [State.fifo_processClose]; exact hrest))

theorem State.dataPath_doGrant {s : State} {l : LinkNo} (hg : s.granted = some l) : s.DataPath (s.doGrant l) := by
  obtain ⟨g, rest, hf, hk⟩ := State.fifo_of_granted hg
  have hmem : ∀ e ∈ g :: rest, e ∈ (look s.links l).fifo := fun e he => by rw [hf]; exact he
  obtain ⟨u, hu⟩ : ∃ u : State, u = { s with lastGranted := l } := ⟨_, rfl⟩
  have hlinks : u.links = s.links := by rw [hu]
  rw [State.doGrant_cons hf, ← hu]
  have hstart : s.DataPath u := by rw [hu]; exact State.DataMove.path (.turn l)
  refine (hstart.trans (u.dataPath_processLine l (by rw [hlinks]; exact hmem g (List.mem_cons_self ..)) hk)).trans
    (State.dataPath_takeHeads _ l ?_)
  rw [State.fifo_processLine, hlinks]
  exact fun e he => hmem e (List.mem_cons_of_mem _ he)

theorem State.dataPath_grantAll (s : State) : s.DataPath s.grantAll :=
  State.grantAll_induction (P := s.DataPath) (fun _ _ hpath hg => hpath.trans (State.dataPath_doGrant hg)) .refl

/-- A whole segment is offered. -/
theorem State.dataPath_offerSegment (s : State) (l : LinkNo) {g : Segment}
    (hg : g.payload.length = g.payloadLength (look s.links l).pixelSize) : s.DataPath (s.offerSegment l g) := by
  by_cases hlength : (look s.links l).fifo.length < 4
  · by_cases hempty : (look s.links l).fifo = []
    · simp only [State.offerSegment]
      rw [if_pos hlength, if_pos (List.isEmpty_iff.mpr hempty)]
      cases hk : g.kind with
      | line =>
        have hjoins : s.DataPath (s.setLink l { look s.links l with fifo := [g] }) :=
          State.DataMove.path (.link l _ rfl rfl rfl fun e he => .inr (by rw [List.mem_singleton.mp he]; exact hg))
        exact hjoins.trans (State.dataPath_grantAll _)
      | openFrame => exact s.dataPath_processOpen l g
      | closeFrame => exact s.dataPath_processClose l g
    · rw [State.offerSegment_joins (List.length_pos_iff.mpr hempty) hlength]
      refine State.DataMove.path (.link l _ rfl rfl rfl fun e he => (List.mem_append.mp he).imp_right fun he => ?_)
      rw [List.mem_singleton.mp he]
      exact hg
  · have hfull : 4 ≤ (look s.links l).fifo.length := Nat.le_of_not_lt hlength
    by_cases hmarks : g.kind ≠ .line ∨ s.context? l ((look s.links l).contextOf g) = none ∨
        (look s.links l).frameEdgeWaits ((look s.links l).contextOf g) = true
    · rw [State.offerSegment_overrun hfull hmarks]
      exact s.dataPath_countLink l _
    · obtain ⟨hk, hcontext, hedge⟩ : g.kind = .line ∧ s.context? l ((look s.links l).contextOf g) ≠ none ∧
          ¬ (look s.links l).frameEdgeWaits ((look s.links l).contextOf g) = true := by
        simpa only [not_or, not_not, ne_eq] using hmarks
      obtain ⟨f, hf⟩ := Option.ne_none_iff_exists'.mp hcontext
      rw [State.offerSegment_overrun_marks hfull hk hf hedge]
      exact (s.dataPath_countLink l _).tail (.advance l _ f _ ((s.context?_countLink l l _ _).trans hf) rfl rfl rfl)

theorem State.dataPath_lockedGood (s : State) (l : LinkNo) {g : Segment}
    (hg : g.payload.length = g.payloadLength (look s.links l).pixelSize) : s.DataPath (s.lockedGood l g) := by
  refine Relation.ReflTransGen.trans (State.DataMove.path (.link l { look s.links l with errorRun := 0 } rfl rfl rfl
    fun _ he => .inl he)) (State.dataPath_offerSegment _ l ?_)
  rw [State.setLink_links, look_put_same]
  exact hg

theorem State.dataPath_loseLock (s : State) (l : LinkNo) : s.DataPath (s.loseLock l) := by
  have hpath := s.dataPath_truncateAll l
  simp only [State.loseLock]
  generalize s.truncateAll l = u at hpath ⊢
  exact hpath.tail (.link l _ rfl rfl rfl (by simp))

theorem State.dataPath_emptyReceiver (s : State) (l : LinkNo) (state : LinkState) : s.DataPath (s.emptyReceiver l state) := by
  have hpath := s.dataPath_truncateAll l
  simp only [State.emptyReceiver]
  generalize s.truncateAll l = u at hpath ⊢
  exact hpath.tail (.link l _ rfl rfl rfl (by simp))

theorem State.dataPath_lockedError (s : State) (l : LinkNo) : s.DataPath (s.lockedError l) := by
  have hcount : s.DataPath (s.setLink l { (look s.links l).count .header with errorRun := (look s.links l).errorRun + 1 }) :=
    State.DataMove.path (.link l _ rfl rfl rfl fun _ hg => .inl hg)
  by_cases hbelow : (look s.links l).errorRun + 1 < 8
  · rw [State.lockedError_below hbelow]
    exact hcount
  · rw [State.lockedError_eighth (Nat.le_of_not_lt hbelow)]
    exact (hcount.trans (State.dataPath_loseLock _ l)).trans (State.dataPath_grantAll _)

/-- A link takes a configuration by moves of the data path, and a last write of its configuration alone (R109, R136). -/
theorem State.configureLink_path (s : State) (l : LinkNo) (enable single : Bool) (z : PixelSize) :
    ∃ u, s.DataPath u ∧ s.configureLink l enable single z =
      u.setLink l { look u.links l with enable := enable, single := single, pixelSize := z } ∧
      ((look s.links l).emptiedBy enable single z = true → (look u.links l).fifo = []) ∧
      (¬ (look s.links l).emptiedBy enable single z = true → (look u.links l).fifo = (look s.links l).fifo) := by
  simp only [State.configureLink]
  refine ⟨_, ?_, rfl, fun h => ?_, fun h => ?_⟩
  · split
    · exact s.dataPath_emptyReceiver l _
    · split
      · exact State.DataMove.path (.link l _ rfl rfl rfl fun _ hg => .inl hg)
      · exact .refl
  · rw [if_pos h]
    simp only [State.emptyReceiver, State.setLink_links, look_put_same]
  · rw [if_neg h]
    split
    · simp only [State.setLink_links, look_put_same]
    · rfl

end Sys2Proof.Machine

/-! SUPPORT. The slots of a record: what a search, a flip and the core of a record tell of them (R10 to R13). -/

namespace Sys2Proof.Machine

/-! ## Slots in a state -/

/-- The slot states of a record, by letter. -/
theorem Placement.slotsIn_congr {p q : Placement} (h : ∀ x, q.phase? x = p.phase? x) (ph : SlotPhase) :
    q.slotsIn ph = p.slotsIn ph := by
  simp only [Placement.slotsIn, h]

/-- A record has two slots. -/
theorem Placement.length_slotsIn_le (p : Placement) :
    (p.slotsIn .active).length + (p.slotsIn .staged).length + (p.slotsIn .superseded).length ≤ 2 := by
  unfold Placement.slotsIn
  generalize p.phase? = phase
  rcases hA : phase .a with _ | _ | _ | _ <;> rcases hB : phase .b with _ | _ | _ | _ <;> simp [hA, hB]

/-- Beside an ACTIVE and a SUPERSEDED slot there is no STAGED one. -/
theorem Placement.staged_eq_nil {p : Placement} (h : (p.slotsIn .active).length = 1) (hs : p.slotsIn .superseded ≠ []) :
    p.slotsIn .staged = [] := by
  have hle := p.length_slotsIn_le
  have hpos := List.length_pos_iff.mpr hs
  exact List.length_eq_zero_iff.mp (by omega)

/-- Beside an ACTIVE slot there is at most one STAGED. -/
theorem Placement.length_staged {p : Placement} (h : (p.slotsIn .active).length = 1) (hs : p.slotsIn .staged ≠ []) :
    (p.slotsIn .staged).length = 1 := by
  have hle := p.length_slotsIn_le
  have hpos := List.length_pos_iff.mpr hs
  omega

/-! ## The flip (R12) -/

theorem Placement.phase?_flip (p : Placement) (x : SlotLetter) : p.flip.phase? x = (p.phase? x).map SlotPhase.flipped := by
  cases x with
  | a => cases hA : p.slotA <;> simp [Placement.phase?, Placement.slot, Placement.flip, hA]
  | b => cases hB : p.slotB <;> simp [Placement.phase?, Placement.slot, Placement.flip, hB]

theorem SlotPhase.flipped_eq_active {ph : SlotPhase} : ph.flipped = .active ↔ ph = .staged := by
  cases ph <;> simp [SlotPhase.flipped]

/-- A flip makes the STAGED slot ACTIVE. -/
theorem Placement.slotsIn_flip_active (p : Placement) : p.flip.slotsIn .active = p.slotsIn .staged := by
  unfold Placement.slotsIn
  congr 1
  funext x
  rw [p.phase?_flip x]
  cases p.phase? x with
  | none => rfl
  | some ph => simp [SlotPhase.flipped_eq_active]

/-- The ACTIVE slot is SUPERSEDED after a flip. -/
theorem Placement.slotsIn_flip_superseded {p : Placement} (h : (p.slotsIn .active).length = 1) :
    p.flip.slotsIn .superseded ≠ [] := by
  obtain ⟨x, hx⟩ := List.exists_mem_of_length_pos (l := p.slotsIn .active) (by omega)
  refine List.ne_nil_of_mem (a := x) (Placement.mem_slotsIn.mpr ?_)
  rw [p.phase?_flip x, Placement.mem_slotsIn.mp hx]
  rfl

theorem Placement.slot_flip_isSome (p : Placement) (x : SlotLetter) : (p.flip.slot x).isSome = (p.slot x).isSome := by
  cases x <;> simp [Placement.slot, Placement.flip]

theorem Placement.occupiedSlots_flip (p : Placement) : p.flip.occupiedSlots = p.occupiedSlots := by
  simp only [Placement.occupiedSlots, p.slot_flip_isSome]

/-! ## The core -/

theorem Placement.core_eq_iff {p q : Placement} : q.core = p.core ↔
    q.key = p.key ∧ q.slotA = p.slotA ∧ q.slotB = p.slotB ∧ q.drain = p.drain ∧ q.claim = p.claim := by
  simp [Placement.core, Prod.ext_iff]

section
variable {p q : Placement} (h : q.core = p.core)
include h

theorem Placement.key_of_core : q.key = p.key := (Placement.core_eq_iff.mp h).1

theorem Placement.drain_of_core : q.drain = p.drain := (Placement.core_eq_iff.mp h).2.2.2.1

theorem Placement.claim_of_core : q.claim = p.claim := (Placement.core_eq_iff.mp h).2.2.2.2

theorem Placement.slot_of_core (x : SlotLetter) : q.slot x = p.slot x := by
  obtain ⟨_, hA, hB, _⟩ := Placement.core_eq_iff.mp h
  cases x with
  | a => exact hA
  | b => exact hB

theorem Placement.slotsIn_of_core (ph : SlotPhase) : q.slotsIn ph = p.slotsIn ph :=
  Placement.slotsIn_congr (fun x => by rw [Placement.phase?, Placement.slot_of_core h, Placement.phase?]) ph

theorem Placement.occupiedSlots_of_core : q.occupiedSlots = p.occupiedSlots := by
  simp only [Placement.occupiedSlots, Placement.slot_of_core h]

end

/-- Every record of `t` has the core it has in `s`. -/
def State.SameCores (s t : State) : Prop :=
  ∀ i, (t.placement? i).map Placement.core = (s.placement? i).map Placement.core

theorem State.SameCores.of_eq {s t : State} (h : ∀ i, t.placement? i = s.placement? i) : s.SameCores t := fun i =>
  congrArg _ (h i)

theorem State.SameCores.symm {s t : State} (h : s.SameCores t) : t.SameCores s := fun i => (h i).symm

theorem State.SameCores.exists {s t : State} (h : s.SameCores t) {i : RecordNo} {q : Placement}
    (hq : t.placement? i = some q) : ∃ p, s.placement? i = some p ∧ q.core = p.core := by
  have hi := h i
  rw [hq, Option.map_some] at hi
  obtain ⟨p, hp, hcore⟩ := Option.map_eq_some_iff.mp hi.symm
  exact ⟨p, hp, hcore.symm⟩

/-- The fields of one record written with the same core. -/
theorem State.sameCores_setPlacement {s : State} {i : RecordNo} {p p' : Placement} (hp : s.placement? i = some p)
    (hcore : p'.core = p.core) : s.SameCores (s.setPlacement i p') := fun j => by
  rw [State.placement?_setPlacement]
  split_ifs with h
  · rw [← h, hp, Option.map_some, Option.map_some, hcore]
  · rfl

end Sys2Proof.Machine

/-! SUPPORT. The agreement of the tables through the moves of the data path (R10, R16, R18, R23, R77). -/

namespace Sys2Proof.Machine

/-- The tables agree, but for what the operation in flight found. -/
def State.TablesSettled (s : State) : Prop := s.OneActive ∧ s.KeysAgree ∧ s.ClaimsAgree ∧ s.AbortsAgree ∧ s.BitsAgree

theorem State.tablesAgree_iff {s : State} : s.TablesAgree ↔ s.TablesSettled ∧ s.OperationHolds :=
  ⟨fun ⟨h1, h2, h3, h4, h5, h6⟩ => ⟨⟨h1, h2, h3, h4, h5⟩, h6⟩, fun ⟨⟨h1, h2, h3, h4, h5⟩, h6⟩ => ⟨h1, h2, h3, h4, h5, h6⟩⟩

section BitsAgree

variable {s : State} (h : s.BitsAgree) {i : RecordNo}

include h

theorem State.BitsAgree.release (hi : look s.releaseSet i = true) :
    ∃ p, s.placement? i = some p ∧ p.drain.isSome = true ∧ p.claim = none := h.1 i hi

theorem State.BitsAgree.commit (hi : look s.commitSet i = true) :
    ∃ p, s.placement? i = some p ∧ p.slotsIn .superseded ≠ [] := h.2.1 i hi

theorem State.BitsAgree.expiry (hi : look s.expirySet i = true) : (s.placement? i).isSome = true := h.2.2 i hi

end BitsAgree

theorem State.TablesSettled.oneActive {s : State} (h : s.TablesSettled) : s.OneActive := h.1

theorem State.TablesSettled.keysAgree {s : State} (h : s.TablesSettled) : s.KeysAgree := by
  obtain ⟨_, hkeys, _⟩ := h
  exact hkeys

theorem State.TablesSettled.claimsAgree {s : State} (h : s.TablesSettled) : s.ClaimsAgree := by
  obtain ⟨_, _, hclaims, _, _⟩ := h
  exact hclaims

/-! ## States whose records have the same cores -/

/-- Every context of `t` claims what it claims in `s`. -/
def State.SameClaims (s t : State) : Prop := ∀ l c i, t.ClaimedAt l c i ↔ s.ClaimedAt l c i

theorem State.SameClaims.of_eq {s t : State} (h : ∀ l c, t.context? l c = s.context? l c) : s.SameClaims t := fun l c i => by
  unfold State.ClaimedAt
  rw [h l c]

section
variable {s t : State} (hcores : s.SameCores t)
include hcores

theorem State.OneActive.sameCores (h : s.OneActive) : t.OneActive := fun i q hq => by
  obtain ⟨p, hp, hcore⟩ := hcores.exists hq
  rw [Placement.slotsIn_of_core hcore]
  exact h i p hp

theorem State.KeysAgree.sameCores (h : s.KeysAgree) (hkeys : t.keyIndex = s.keyIndex) : t.KeysAgree := fun k i => by
  rw [hkeys, h k i]
  refine ⟨fun ⟨p, hp, hd, hk⟩ => ?_, fun ⟨q, hq, hd, hk⟩ => ?_⟩
  · obtain ⟨q, hq, hcore⟩ := hcores.symm.exists hp
    exact ⟨q, hq, (Placement.drain_of_core hcore).symm.trans hd, (Placement.key_of_core hcore).symm.trans hk⟩
  · obtain ⟨p, hp, hcore⟩ := hcores.exists hq
    exact ⟨p, hp, (Placement.drain_of_core hcore).symm.trans hd, (Placement.key_of_core hcore).symm.trans hk⟩

theorem State.ClaimsAgree.sameCores (h : s.ClaimsAgree) (hclaims : s.SameClaims t) : t.ClaimsAgree := by
  refine ⟨fun i q c hq hc => ?_, fun l c f i hf hi => ?_⟩
  · obtain ⟨p, hp, hcore⟩ := hcores.exists hq
    obtain ⟨hkey, hclaimed⟩ := h.1 i p c hp ((Placement.claim_of_core hcore).symm.trans hc)
    exact ⟨hkey.trans (Placement.key_of_core hcore).symm, (hclaims _ _ _).mpr hclaimed⟩
  · obtain ⟨g, hg, hgi⟩ := (hclaims l c i).mp ⟨f, hf, hi⟩
    obtain ⟨p, hp, hclaim⟩ := h.2 l c g i hg hgi
    obtain ⟨q, hq, hcore⟩ := hcores.symm.exists hp
    exact ⟨q, hq, (Placement.claim_of_core hcore).symm.trans hclaim⟩

theorem State.AbortsAgree.sameCores (h : s.AbortsAgree) (haborts : ∀ a ∈ t.aborts, a ∈ s.aborts) : t.AbortsAgree :=
  fun a ha => by
  obtain ⟨p, hp, hd, hc⟩ := h a (haborts a ha)
  obtain ⟨q, hq, hcore⟩ := hcores.symm.exists hp
  exact ⟨q, hq, by rwa [← Placement.drain_of_core hcore], (Placement.claim_of_core hcore).symm.trans hc⟩

/-- Pending bits may be cleared. -/
theorem State.BitsAgree.sameCores (h : s.BitsAgree) (hrelease : ∀ i, look t.releaseSet i = true → look s.releaseSet i = true)
    (hcommit : ∀ i, look t.commitSet i = true → look s.commitSet i = true)
    (hexpiry : ∀ i, look t.expirySet i = true → look s.expirySet i = true ∨ (s.placement? i).isSome = true) :
    t.BitsAgree := by
  refine ⟨fun i hi => ?_, fun i hi => ?_, fun i hi => ?_⟩
  · obtain ⟨p, hp, hd, hc⟩ := h.release (hrelease i hi)
    obtain ⟨q, hq, hcore⟩ := hcores.symm.exists hp
    exact ⟨q, hq, by rwa [← Placement.drain_of_core hcore], (Placement.claim_of_core hcore).symm.trans hc⟩
  · obtain ⟨p, hp, hsuperseded⟩ := h.commit (hcommit i hi)
    obtain ⟨q, hq, hcore⟩ := hcores.symm.exists hp
    exact ⟨q, hq, by rwa [← Placement.slotsIn_of_core hcore]⟩
  · obtain ⟨p, hp⟩ := Option.isSome_iff_exists.mp ((hexpiry i hi).elim h.expiry id)
    obtain ⟨q, hq, _⟩ := hcores.symm.exists hp
    rw [hq]
    rfl

/-- Records with the same cores, with the claims, the keys and the pending sets left, keep the agreement. -/
theorem State.TablesSettled.sameCores (h : s.TablesSettled) (hkeys : t.keyIndex = s.keyIndex) (hclaims : s.SameClaims t)
    (haborts : ∀ a ∈ t.aborts, a ∈ s.aborts) (hrelease : t.releaseSet = s.releaseSet) (hcommit : t.commitSet = s.commitSet)
    (hexpiry : t.expirySet = s.expirySet) : t.TablesSettled := by
  obtain ⟨hactive, hkeysAgree, hclaimsAgree, habortsAgree, hbits⟩ := h
  exact ⟨hactive.sameCores hcores, hkeysAgree.sameCores hcores hkeys, hclaimsAgree.sameCores hcores hclaims,
    habortsAgree.sameCores hcores haborts, hbits.sameCores hcores (by rw [hrelease]; exact fun _ => id)
      (by rw [hcommit]; exact fun _ => id) (by rw [hexpiry]; exact fun _ => .inl)⟩

end

/-! ## States that differ in one record -/

/-- From `s` to `t` record `i` passes from `p` to `q`, and every other record is left. -/
structure State.Rewrites (s t : State) (i : RecordNo) (p q : Placement) : Prop where
  before : s.placement? i = some p
  after : t.placement? i = some q
  others : ∀ j, j ≠ i → t.placement? j = s.placement? j

theorem State.rewrites_setPlacement {s : State} {i : RecordNo} {p : Placement} (hp : s.placement? i = some p) (q : Placement) :
    s.Rewrites (s.setPlacement i q) i p q where
  before := hp
  after := State.placement?_setPlacement_same s i q
  others j hj := by rw [State.placement?_setPlacement, if_neg (Ne.symm hj)]

section
variable {s t : State} {i : RecordNo} {p q : Placement} (hw : s.Rewrites t i p q)
include hw

theorem State.OneActive.rewrites (h : s.OneActive) (hq : (q.slotsIn .active).length = 1) : t.OneActive := fun j r hr => by
  by_cases hj : j = i
  · rw [hj, hw.after] at hr
    cases hr
    exact hq
  · exact h j r ((hw.others j hj).symm.trans hr)

theorem State.KeysAgree.rewrites (h : s.KeysAgree) (hkeys : t.keyIndex = s.keyIndex) (hkey : q.key = p.key)
    (hdrain : q.drain = p.drain) : t.KeysAgree := fun k j => by
  rw [hkeys, h k j]
  by_cases hj : j = i
  · rw [hj, hw.before, hw.after]
    simp [hkey, hdrain]
  · rw [hw.others j hj]

theorem State.ClaimsAgree.rewrites (h : s.ClaimsAgree) (hclaims : s.SameClaims t) (hkey : q.key = p.key)
    (hclaim : q.claim = p.claim) : t.ClaimsAgree := by
  refine ⟨fun j r c hr hc => ?_, fun l c f j hf hj => ?_⟩
  · by_cases hji : j = i
    · rw [hji, hw.after] at hr
      cases hr
      obtain ⟨hk, hclaimed⟩ := h.1 i p c hw.before (hclaim.symm.trans hc)
      exact ⟨hk.trans hkey.symm, (hclaims _ _ _).mpr (hji ▸ hclaimed)⟩
    · obtain ⟨hk, hclaimed⟩ := h.1 j r c ((hw.others j hji).symm.trans hr) hc
      exact ⟨hk, (hclaims _ _ _).mpr hclaimed⟩
  · obtain ⟨g, hg, hgj⟩ := (hclaims l c j).mp ⟨f, hf, hj⟩
    obtain ⟨r, hr, hc⟩ := h.2 l c g j hg hgj
    by_cases hji : j = i
    · rw [hji, hw.before] at hr
      cases hr
      exact ⟨q, hji ▸ hw.after, hclaim.trans hc⟩
    · exact ⟨r, (hw.others j hji).trans hr, hc⟩

theorem State.AbortsAgree.rewrites (h : s.AbortsAgree) (haborts : ∀ a ∈ t.aborts, a.record ≠ i → a ∈ s.aborts)
    (hself : ∀ a ∈ t.aborts, a.record = i → q.drain.isSome = true ∧ q.claim = some a.context) : t.AbortsAgree := fun a ha => by
  by_cases hi : a.record = i
  · exact ⟨q, hi ▸ hw.after, hself a ha hi⟩
  · rw [hw.others _ hi]
    exact h a (haborts a ha hi)

theorem State.BitsAgree.rewrites (h : s.BitsAgree)
    (hrelease : ∀ j, j ≠ i → look t.releaseSet j = true → look s.releaseSet j = true)
    (hcommit : ∀ j, j ≠ i → look t.commitSet j = true → look s.commitSet j = true)
    (hexpiry : ∀ j, look t.expirySet j = true → look s.expirySet j = true)
    (hrelease' : look t.releaseSet i = true → q.drain.isSome = true ∧ q.claim = none)
    (hcommit' : look t.commitSet i = true → q.slotsIn .superseded ≠ []) : t.BitsAgree := by
  refine ⟨fun j hj => ?_, fun j hj => ?_, fun j hj => ?_⟩
  · by_cases hji : j = i
    · subst hji
      exact ⟨q, hw.after, hrelease' hj⟩
    · rw [hw.others j hji]
      exact h.release (hrelease j hji hj)
  · by_cases hji : j = i
    · subst hji
      exact ⟨q, hw.after, hcommit' hj⟩
    · rw [hw.others j hji]
      exact h.commit (hcommit j hji hj)
  · by_cases hji : j = i
    · rw [hji, hw.after]
      rfl
    · rw [hw.others j hji]
      exact h.expiry (hexpiry j hj)

end

/-! ## The flip (R12) -/

/-- A flip request is taken by a record with a STAGED slot, or has no effect (R12). -/
theorem State.takeFlip_cases (s : State) (i : RecordNo) :
    s.takeFlip i = s ∨ ∃ p, s.placement? i = some p ∧ p.slotsIn .staged ≠ [] ∧
      s.takeFlip i = { s.setPlacement i p.flip with commitSet := put s.commitSet i true } := by
  cases hp : s.placement? i with
  | none => left; simp only [State.takeFlip, hp]
  | some p =>
    by_cases hst : p.slotsIn .staged = []
    · exact .inl (State.takeFlip_plain hp hst)
    · exact .inr ⟨p, rfl, hst, State.takeFlip_staged hp (Placement.find?_isSome_iff.mpr hst)⟩

theorem State.TablesSettled.takeFlip {s : State} (h : s.TablesSettled) (i : RecordNo) : (s.takeFlip i).TablesSettled := by
  rcases s.takeFlip_cases i with heq | ⟨p, hp, hst, heq⟩
  · rw [heq]; exact h
  · obtain ⟨hactive, hkeys, hclaims, haborts, hbits⟩ := h
    have hone := hactive i p hp
    have hw : s.Rewrites ({ s.setPlacement i p.flip with commitSet := put s.commitSet i true } : State) i p p.flip :=
      { State.rewrites_setPlacement hp p.flip with }
    rw [heq]
    refine ⟨hactive.rewrites hw ?_, hkeys.rewrites hw rfl rfl rfl, hclaims.rewrites hw (.of_eq fun _ _ => rfl) rfl rfl,
      haborts.rewrites hw (fun _ ha _ => ha) fun a ha hi => ?_, hbits.rewrites hw (fun _ _ => id) (fun j hj => ?_)
        (fun _ => id) (fun hi => ?_) fun _ => Placement.slotsIn_flip_superseded hone⟩
    · rw [p.slotsIn_flip_active]
      exact Placement.length_staged hone hst
    · obtain ⟨q, hq, hd, hc⟩ := haborts a ha
      rw [hi, hp] at hq
      cases hq
      exact ⟨hd, hc⟩
    · exact fun hb => by rwa [look_put_ne _ _ (Ne.symm hj)] at hb
    · obtain ⟨q, hq, hd, hc⟩ := hbits.release hi
      rw [hp] at hq
      cases hq
      exact ⟨hd, hc⟩

/-! ## The end of a frame and the claim (R14, R17) -/

/-- The frame that claims a record ends: the record is unclaimed. -/
theorem State.rewrites_endFrame {s : State} {f : Frame} {i : RecordNo} {p : Placement} (hf : f.claims i = true)
    (hp : s.placement? i = some p) (l : LinkNo) (c : Channel) (n : RecordCounter) :
    s.Rewrites (s.endFrame l c f n) i p { p.count n with claim := none } where
  before := hp
  after := State.placement?_endFrame_claimed hf hp l c n
  others j hj := State.placement?_endFrame_other (fun hfj => hj (by
    have hi := Frame.claims_iff.mp hf
    have hj := Frame.claims_iff.mp hfj
    rw [hi] at hj
    exact (Option.some.inj hj).symm)) l c n

/-- The end of a frame leaves the keys and the Commit and Expiry sets. -/
theorem State.endFrame_sets (s : State) (l : LinkNo) (c : Channel) (f : Frame) (n : RecordCounter) :
    (s.endFrame l c f n).keyIndex = s.keyIndex ∧ (s.endFrame l c f n).commitSet = s.commitSet ∧
      (s.endFrame l c f n).expirySet = s.expirySet := by
  have h := s.offClaims_endFrame l c f n
  refine ⟨by rw [h], by rw [h], by rw [h]⟩

theorem State.TablesSettled.endFrame {s : State} (h : s.TablesSettled) {l : LinkNo} {c : Channel} {f : Frame}
    (hf : s.context? l c = some f) (n : RecordCounter) : (s.endFrame l c f n).TablesSettled := by
  obtain ⟨hactive, hkeys, hclaims, haborts, hbits⟩ := h
  obtain ⟨hindex, hcommit, hexpiry⟩ := s.endFrame_sets l c f n
  have hclaims' := hclaims.endFrame hf n
  cases hr : f.phase.record? with
  | none =>
    have hcores : s.SameCores (s.endFrame l c f n) := .of_eq fun i => by rw [State.endFrame_unclaimed hr]; rfl
    have hsets : (s.endFrame l c f n).aborts = s.aborts ∧ (s.endFrame l c f n).releaseSet = s.releaseSet := by
      rw [State.endFrame_unclaimed hr]
      exact ⟨rfl, rfl⟩
    exact ⟨hactive.sameCores hcores, hkeys.sameCores hcores hindex, hclaims',
      haborts.sameCores hcores (by rw [hsets.1]; exact fun _ => id),
      hbits.sameCores hcores (by rw [hsets.2]; exact fun _ => id) (by rw [hcommit]; exact fun _ => id)
        (by rw [hexpiry]; exact fun _ => .inl)⟩
  | some i =>
    have hfi : f.claims i = true := Frame.claims_iff.mpr hr
    obtain ⟨p, hp, hclaim⟩ := hclaims.2 l c f i hf hfi
    have hw := State.rewrites_endFrame hfi hp l c n
    have habort := State.aborts_endFrame_claimed hfi hp l c n
    refine ⟨hactive.rewrites hw (hactive i p hp), hkeys.rewrites hw hindex rfl rfl, hclaims',
      haborts.rewrites hw (fun a ha _ => ?_) (fun a ha hi => ?_), hbits.rewrites hw (fun j hj => ?_)
        (by rw [hcommit]; exact fun _ _ => id) (by rw [hexpiry]; exact fun _ => id) (fun hi => ⟨?_, rfl⟩) fun hi => ?_⟩
    · rw [habort] at ha
      exact (List.mem_filter.mp ha).1
    · rw [habort] at ha
      exact absurd hi (of_decide_eq_true (List.mem_filter.mp ha).2)
    · have hother : ¬ f.claims j = true := fun hfj => by
        rw [Frame.claims_iff, hr] at hfj
        exact hj (Option.some.inj hfj).symm
      rw [(State.look_endFrame_other hother l c n).2]
      exact id
    · rw [State.look_releaseSet_endFrame_claimed hfi hp, Bool.or_eq_true] at hi
      refine hi.elim (fun hi => ?_) id
      obtain ⟨q, hq, _, hnone⟩ := hbits.release hi
      rw [hp] at hq
      cases hq
      rw [hclaim] at hnone
      cases hnone
    · rw [hcommit] at hi
      obtain ⟨q, hq, hsuperseded⟩ := hbits.commit hi
      rw [hp] at hq
      cases hq
      exact hsuperseded

/-- A record is claimed by the IDLE context of its key, whose frame then claims it (R14, R16). -/
theorem State.TablesSettled.claim {s : State} (h : s.TablesSettled) {l : LinkNo} {c : Channel} {i : RecordNo} {p : Placement}
    {f : Frame} (hp : s.placement? i = some p) (hd : p.drain = none) (hk : p.key = { link := l, channel := c })
    (hidle : s.context? l c = none) (hf : f.claims i = true) :
    ((s.setPlacement i { p with claim := some { link := l, channel := c } }).setContext l c (some f)).TablesSettled := by
  obtain ⟨hactive, hkeys, hclaims, haborts, hbits⟩ := h
  obtain ⟨t, ht⟩ : ∃ t, t = (s.setPlacement i { p with claim := some { link := l, channel := c } }).setContext l c (some f) :=
    ⟨_, rfl⟩
  have hw : s.Rewrites t i p { p with claim := some { link := l, channel := c } } := by
    rw [ht]
    exact { State.rewrites_setPlacement hp _ with }
  have hcontext (m : LinkNo) (d : Channel) : t.context? m d = if l = m ∧ c = d then some f else s.context? m d := by
    rw [ht, State.context?_setContext]
    rfl
  have hunclaimed : p.claim = none := by
    cases hclaim : p.claim with
    | none => rfl
    | some d =>
      obtain ⟨hkey, g, hg, _⟩ := hclaims.1 i p d hp hclaim
      rw [hkey, hk, hidle] at hg
      cases hg
  have hindex : t.keyIndex = s.keyIndex := by rw [ht]; rfl
  have habort : t.aborts = s.aborts := by rw [ht]; rfl
  have hrelease : t.releaseSet = s.releaseSet := by rw [ht]; rfl
  have hcommit : t.commitSet = s.commitSet := by rw [ht]; rfl
  have hexpiry : t.expirySet = s.expirySet := by rw [ht]; rfl
  have honly (j : RecordNo) (hj : f.claims j = true) : j = i := by
    have hji := (Frame.claims_iff.mp hf).symm.trans (Frame.claims_iff.mp hj)
    exact (Option.some.inj hji).symm
  rw [← ht]
  refine ⟨hactive.rewrites hw (hactive i p hp), hkeys.rewrites hw hindex rfl rfl, ⟨fun j q d hq hclaim => ?_,
    fun m d g j hg hj => ?_⟩, haborts.rewrites hw (by rw [habort]; exact fun _ ha _ => ha) (fun a ha hi => ?_),
    hbits.rewrites hw (by rw [hrelease]; exact fun _ _ => id) (by rw [hcommit]; exact fun _ _ => id)
      (by rw [hexpiry]; exact fun _ => id) (fun hi => ?_) fun hi => ?_⟩
  · by_cases hj : j = i
    · subst hj
      rw [hw.after] at hq
      cases hq
      obtain rfl : { link := l, channel := c } = d := Option.some.inj hclaim
      exact ⟨hk.symm, f, by rw [hcontext, if_pos ⟨rfl, rfl⟩], hf⟩
    · obtain ⟨hkey, g, hg, hgj⟩ := hclaims.1 j q d ((hw.others j hj).symm.trans hq) hclaim
      refine ⟨hkey, g, ?_, hgj⟩
      rw [hcontext, if_neg]
      · exact hg
      · rintro ⟨rfl, rfl⟩
        rw [hidle] at hg
        cases hg
  · rw [hcontext] at hg
    split_ifs at hg with hmd
    · obtain ⟨rfl, rfl⟩ := hmd
      obtain rfl : f = g := Option.some.inj hg
      rw [honly j hj]
      exact ⟨_, hw.after, rfl⟩
    · obtain ⟨q, hq, hclaim⟩ := hclaims.2 m d g j hg hj
      have hji : j ≠ i := by
        rintro rfl
        rw [hp] at hq
        cases hq
        rw [hunclaimed] at hclaim
        cases hclaim
      exact ⟨q, (hw.others j hji).trans hq, hclaim⟩
  · rw [habort] at ha
    obtain ⟨q, hq, _, hclaim⟩ := haborts a ha
    rw [hi, hp] at hq
    cases hq
    rw [hunclaimed] at hclaim
    cases hclaim
  · rw [hrelease] at hi
    obtain ⟨q, hq, hdrain, _⟩ := hbits.release hi
    rw [hp] at hq
    cases hq
    rw [hd] at hdrain
    cases hdrain
  · rw [hcommit] at hi
    obtain ⟨q, hq, hsuperseded⟩ := hbits.commit hi
    rw [hp] at hq
    cases hq
    exact hsuperseded

end Sys2Proof.Machine

/-! SUPPORT. The data path keeps the agreement of the tables, with what the operation in flight found (R48). -/

namespace Sys2Proof.Machine

/-! ## The open-and-claim request, through its flip (R14) -/

/-- The fields of a record after a flip request to it. -/
def Placement.taken (p : Placement) : Placement := if p.slotsIn .staged = [] then p else p.flip

theorem Placement.taken_key (p : Placement) : p.taken.key = p.key := by unfold Placement.taken; split <;> rfl

theorem Placement.taken_drain (p : Placement) : p.taken.drain = p.drain := by unfold Placement.taken; split <;> rfl

theorem Placement.taken_claim (p : Placement) : p.taken.claim = p.claim := by unfold Placement.taken; split <;> rfl

theorem State.placement?_takeFlip {s : State} {i : RecordNo} {p : Placement} (hp : s.placement? i = some p) (j : RecordNo) :
    (s.takeFlip i).placement? j = if i = j then some p.taken else s.placement? j := by
  by_cases hst : p.slotsIn .staged = []
  · rw [State.takeFlip_plain hp hst, Placement.taken, if_pos hst]
    split_ifs with hij
    · rw [← hij, hp]
    · rfl
  · rw [State.takeFlip_staged hp (Placement.find?_isSome_iff.mpr hst), Placement.taken, if_neg hst]
    exact State.placement?_setPlacement s i j p.flip

/-- The request takes the flip first, and the claim then. -/
theorem State.openAndClaim_eq {s : State} {i : RecordNo} {p : Placement} (hp : s.placement? i = some p) (c : Key) :
    s.openAndClaim i c = (s.takeFlip i).setPlacement i { p.taken with claim := some c } := by
  have htaken : (s.takeFlip i).placement? i = some p.taken := by rw [State.placement?_takeFlip hp, if_pos rfl]
  simp only [State.openAndClaim, htaken]

/-- Bursts that join change the queue, the issue number and the timer alone (R141, R148). -/
theorem State.joinBursts_frame (s : State) (bs : List Burst) : ∃ n timer, s.joinBursts bs =
    { s with bursts := s.bursts ++ bs, issueNumber := n, timer := timer } := by
  unfold State.joinBursts
  simp only
  split
  · exact ⟨_, _, rfl⟩
  · exact ⟨_, _, rfl⟩

/-! ## The agreement through a move -/

theorem State.TablesSettled.move {s t : State} (h : s.TablesSettled) (hmove : s.DataMove t) : t.TablesSettled := by
  cases hmove with
  | link l k contexts single pixelSize fifo =>
    have hcores : s.SameCores (s.setLink l k) := .of_eq fun _ => rfl
    exact h.sameCores hcores rfl (.of_eq (State.context?_setLink contexts)) (fun _ => id) rfl rfl rfl
  | endFrame l c f n opened => exact h.endFrame opened n
  | report i p p' used core =>
    exact h.sameCores (State.sameCores_setPlacement used core) rfl (.of_eq fun _ _ => rfl) (fun _ => id) rfl rfl rfl
  | unclaimed l c f idle none =>
    have hcores : s.SameCores (s.setContext l c (some f)) := .of_eq fun _ => rfl
    refine h.sameCores hcores rfl (fun m d i => ?_) (fun _ => id) rfl rfl rfl
    unfold State.ClaimedAt
    rw [State.context?_setContext]
    split_ifs with hmd
    · obtain ⟨rfl, rfl⟩ := hmd
      simp [idle, Frame.claims_iff, none]
    · rfl
  | advance l c f f' opened phase width height =>
    have hcores : s.SameCores (s.setContext l c (some f')) := .of_eq fun _ => rfl
    refine h.sameCores hcores rfl (fun m d i => ?_) (fun _ => id) rfl rfl rfl
    unfold State.ClaimedAt
    rw [State.context?_setContext]
    split_ifs with hmd
    · obtain ⟨rfl, rfl⟩ := hmd
      simp [opened, Frame.claims_iff, phase]
    · rfl
  | claim l c i p f keyed used idle claims sized =>
    obtain ⟨q, hq, hd, hk⟩ := (h.keysAgree _ i).mp keyed
    rw [used] at hq
    cases hq
    rw [State.openAndClaim_eq used]
    refine (h.takeFlip i).claim (p := p.taken) ?_ (p.taken_drain.trans hd) (p.taken_key.trans hk) ?_ claims
    · rw [State.placement?_takeFlip used, if_pos rfl]
    · rw [State.context?_congr (s.links_takeFlip i)]
      exact idle
  | bursts l g waits line =>
    obtain ⟨n, timer, heq⟩ := s.joinBursts_frame (s.lineBursts l g)
    rw [heq]
    exact h
  | turn l => exact h
  | abort a =>
    have hcores : s.SameCores { s with aborts := s.aborts.erase a } := .of_eq fun _ => rfl
    exact h.sameCores hcores rfl (.of_eq fun _ _ => rfl) (fun _ ha => List.mem_of_mem_erase ha) rfl rfl rfl

/-! ## What the operation in flight found (R48) -/

/-- Of a record that the operation in flight may be about, `q` in `t` keeps what `p` in `s` shows: its key, its drain cause,
that no slot is pending, a SUPERSEDED slot with its Commit bit, the slots in use, and for a DRAINING record that it is
unclaimed, with its Release bit. -/
structure State.KeepsRecord (s t : State) (i : RecordNo) (p q : Placement) : Prop where
  key : q.key = p.key
  drain : q.drain = p.drain
  pending : p.pendingPhase = none → q.pendingPhase = none
  superseded : p.slotsIn .superseded ≠ [] → q.slotsIn .superseded = p.slotsIn .superseded ∧
    (look t.commitSet i = true → look s.commitSet i = true)
  occupied : q.occupiedSlots = p.occupiedSlots
  draining : p.drain.isSome = true → p.claim = none → q.claim = none ∧ (look t.releaseSet i = true → look s.releaseSet i = true)

/-- `t` keeps what the operation in flight found in `s`. -/
structure State.KeepsOperation (s t : State) : Prop where
  engine : t.engine = s.engine
  keys : t.keyIndex = s.keyIndex
  generations : ∀ i, (look t.records i).generation = (look s.records i).generation
  free : ∀ i, s.placement? i = none → t.placement? i = none
  used : ∀ i p, s.placement? i = some p → ∃ q, t.placement? i = some q ∧ s.KeepsRecord t i p q

theorem State.KeepsRecord.trans {s t u : State} {i : RecordNo} {p q r : Placement} (h : s.KeepsRecord t i p q)
    (h' : t.KeepsRecord u i q r) : s.KeepsRecord u i p r where
  key := h'.key.trans h.key
  drain := h'.drain.trans h.drain
  pending hp := h'.pending (h.pending hp)
  superseded hp := by
    obtain ⟨hq, hbit⟩ := h.superseded hp
    obtain ⟨hr, hbit'⟩ := h'.superseded (hq.symm ▸ hp)
    exact ⟨hr.trans hq, fun hu => hbit (hbit' hu)⟩
  occupied := h'.occupied.trans h.occupied
  draining hd hc := by
    obtain ⟨hq, hbit⟩ := h.draining hd hc
    obtain ⟨hr, hbit'⟩ := h'.draining (h.drain.symm ▸ hd) hq
    exact ⟨hr, fun hu => hbit (hbit' hu)⟩

theorem State.KeepsOperation.trans {s t u : State} (h : s.KeepsOperation t) (h' : t.KeepsOperation u) : s.KeepsOperation u where
  engine := h'.engine.trans h.engine
  keys := h'.keys.trans h.keys
  generations i := (h'.generations i).trans (h.generations i)
  free i hi := h'.free i (h.free i hi)
  used i p hp := by
    obtain ⟨q, hq, hpq⟩ := h.used i p hp
    obtain ⟨r, hr, hqr⟩ := h'.used i q hq
    exact ⟨r, hr, hpq.trans hqr⟩

/-- Records with the same cores, with no pending bit set anew. -/
theorem State.keepsOperation_of_cores {s t : State} (hcores : s.SameCores t) (hengine : t.engine = s.engine)
    (hkeys : t.keyIndex = s.keyIndex)
    (hgenerations : ∀ i, (look t.records i).generation = (look s.records i).generation)
    (hcommit : t.commitSet = s.commitSet) (hrelease : t.releaseSet = s.releaseSet) : s.KeepsOperation t where
  engine := hengine
  keys := hkeys
  generations := hgenerations
  free i hi := by
    have h := hcores i
    rw [hi, Option.map_none, Option.map_eq_none_iff] at h
    exact h
  used i p hp := by
    obtain ⟨q, hq, hcore⟩ := hcores.symm.exists hp
    refine ⟨q, hq, Placement.key_of_core hcore.symm, Placement.drain_of_core hcore.symm, fun h => ?_, fun _ => ⟨?_, ?_⟩,
      Placement.occupiedSlots_of_core hcore.symm, fun _ hc => ⟨(Placement.claim_of_core hcore.symm).trans hc, ?_⟩⟩
    · rwa [Placement.pendingPhase_eq_none, Placement.slotsIn_of_core hcore.symm, Placement.slotsIn_of_core hcore.symm,
        ← Placement.pendingPhase_eq_none]
    · exact Placement.slotsIn_of_core hcore.symm _
    · rw [hcommit]; exact id
    · rw [hrelease]; exact id

/-- A record whose fields are left keeps what it shows where its pending bits are not set anew. -/
theorem State.keepsRecord_self {s t : State} {i : RecordNo} (p : Placement)
    (hcommit : look t.commitSet i = look s.commitSet i) (hrelease : look t.releaseSet i = look s.releaseSet i) :
    s.KeepsRecord t i p p where
  key := rfl
  drain := rfl
  pending := id
  superseded _ := ⟨rfl, by rw [hcommit]; exact id⟩
  occupied := rfl
  draining _ hc := ⟨hc, by rw [hrelease]; exact id⟩

/-- One record passes to fields that keep what it shows, and every other is left with its pending bits. -/
theorem State.Rewrites.keepsOperation {s t : State} {i : RecordNo} {p q : Placement} (hw : s.Rewrites t i p q)
    (hengine : t.engine = s.engine) (hkeys : t.keyIndex = s.keyIndex)
    (hgenerations : ∀ j, (look t.records j).generation = (look s.records j).generation)
    (hcommit : ∀ j, j ≠ i → look t.commitSet j = look s.commitSet j)
    (hrelease : ∀ j, j ≠ i → look t.releaseSet j = look s.releaseSet j) (hq : s.KeepsRecord t i p q) :
    s.KeepsOperation t where
  engine := hengine
  keys := hkeys
  generations := hgenerations
  free j hj := by
    by_cases hji : j = i
    · rw [hji, hw.before] at hj
      cases hj
    · exact (hw.others j hji).trans hj
  used j r hr := by
    by_cases hji : j = i
    · subst hji
      rw [hw.before] at hr
      cases hr
      exact ⟨q, hw.after, hq⟩
    · exact ⟨r, (hw.others j hji).trans hr, State.keepsRecord_self r (hcommit j hji) (hrelease j hji)⟩

/-- The flip of a record with an ACTIVE and a STAGED slot keeps what the operation in flight found (R12). -/
theorem State.OneActive.keepsOperation_takeFlip {s : State} (h : s.OneActive) (i : RecordNo) :
    s.KeepsOperation (s.takeFlip i) := by
  rcases s.takeFlip_cases i with heq | ⟨p, hp, hst, heq⟩
  · rw [heq]
    exact State.keepsOperation_of_cores (.of_eq fun _ => rfl) rfl rfl (fun _ => rfl) rfl rfl
  · have hw : s.Rewrites ({ s.setPlacement i p.flip with commitSet := put s.commitSet i true } : State) i p p.flip :=
      { State.rewrites_setPlacement hp p.flip with }
    rw [heq]
    refine hw.keepsOperation rfl rfl (fun j => s.generation_setPlacement i j p.flip)
      (fun j hj => look_put_ne _ _ (Ne.symm hj)) (fun _ _ => rfl) ?_
    have hnone : p.slotsIn .superseded = [] := by
      by_contra hs
      exact hst (Placement.staged_eq_nil (h i p hp) hs)
    exact ⟨rfl, rfl, fun hpending => absurd (Placement.pendingPhase_eq_none.mp hpending).1 hst,
      fun hs => absurd hnone hs, p.occupiedSlots_flip, fun _ hc => ⟨hc, id⟩⟩

theorem State.TablesSettled.keepsOperation_endFrame {s : State} (h : s.TablesSettled) {l : LinkNo} {c : Channel} {f : Frame}
    (hf : s.context? l c = some f) (n : RecordCounter) : s.KeepsOperation (s.endFrame l c f n) := by
  obtain ⟨_, _, hclaims, _, _⟩ := h
  obtain ⟨hindex, hcommit, _⟩ := s.endFrame_sets l c f n
  have hengine : (s.endFrame l c f n).engine = s.engine := by
    have hoff := s.offClaims_endFrame l c f n
    rw [hoff]
  cases hr : f.phase.record? with
  | none =>
    rw [State.endFrame_unclaimed hr]
    exact State.keepsOperation_of_cores (.of_eq fun _ => rfl) rfl rfl (fun _ => rfl) rfl rfl
  | some i =>
    have hfi : f.claims i = true := Frame.claims_iff.mpr hr
    obtain ⟨p, hp, hclaim⟩ := hclaims.2 l c f i hf hfi
    have hw := State.rewrites_endFrame hfi hp l c n
    have hother (j : RecordNo) (hj : j ≠ i) : ¬ f.claims j = true := fun hfj => by
      rw [Frame.claims_iff, hr] at hfj
      exact hj (Option.some.inj hfj).symm
    refine hw.keepsOperation hengine hindex (fun j => ?_) (fun _ _ => by rw [hcommit])
      (fun j hj => (State.look_endFrame_other (hother j hj) l c n).2) ⟨rfl, rfl, id, fun _ => ⟨rfl, by rw [hcommit]; exact id⟩,
        rfl, fun _ hnone => ?_⟩
    · by_cases hj : j = i
      · rw [hj, State.look_records_endFrame_claimed hfi hp]
      · rw [(State.look_endFrame_other (hother j hj) l c n).1]
    · rw [hclaim] at hnone
      cases hnone

/-- The claim of a LIVE record keeps what the operation in flight found. -/
theorem State.keepsOperation_claim {s : State} {i : RecordNo} {p : Placement} (hp : s.placement? i = some p)
    (hd : p.drain = none) (l : LinkNo) (c : Channel) (f : Frame) (k : Key) :
    s.KeepsOperation ((s.setPlacement i { p with claim := some k }).setContext l c (some f)) := by
  have hw : s.Rewrites ((s.setPlacement i { p with claim := some k }).setContext l c (some f)) i p
      { p with claim := some k } := { State.rewrites_setPlacement hp _ with }
  exact hw.keepsOperation rfl rfl (fun j => s.generation_setPlacement i j _) (fun _ _ => rfl) (fun _ _ => rfl)
    ⟨rfl, rfl, id, fun _ => ⟨rfl, id⟩, rfl, fun hdrain => by rw [hd] at hdrain; cases hdrain⟩

theorem State.TablesSettled.keepsOperation_move {s t : State} (h : s.TablesSettled) (hmove : s.DataMove t) :
    s.KeepsOperation t := by
  cases hmove with
  | link l k contexts single pixelSize fifo =>
    exact State.keepsOperation_of_cores (.of_eq fun _ => rfl) rfl rfl (fun _ => rfl) rfl rfl
  | endFrame l c f n opened => exact h.keepsOperation_endFrame opened n
  | report i p p' used core =>
    exact State.keepsOperation_of_cores (State.sameCores_setPlacement used core) rfl rfl
      (fun j => s.generation_setPlacement i j p') rfl rfl
  | unclaimed l c f idle none => exact State.keepsOperation_of_cores (.of_eq fun _ => rfl) rfl rfl (fun _ => rfl) rfl rfl
  | advance l c f f' opened phase width height =>
    exact State.keepsOperation_of_cores (.of_eq fun _ => rfl) rfl rfl (fun _ => rfl) rfl rfl
  | claim l c i p f keyed used idle claims sized =>
    obtain ⟨q, hq, hd, hk⟩ := (h.keysAgree _ i).mp keyed
    rw [used] at hq
    cases hq
    rw [State.openAndClaim_eq used]
    have htaken : (s.takeFlip i).placement? i = some p.taken := by rw [State.placement?_takeFlip used, if_pos rfl]
    exact (h.oneActive.keepsOperation_takeFlip i).trans
      (State.keepsOperation_claim htaken (p.taken_drain.trans hd) l c f { link := l, channel := c })
  | bursts l g waits line =>
    obtain ⟨n, timer, heq⟩ := s.joinBursts_frame (s.lineBursts l g)
    rw [heq]
    exact State.keepsOperation_of_cores (.of_eq fun _ => rfl) rfl rfl (fun _ => rfl) rfl rfl
  | turn l => exact State.keepsOperation_of_cores (.of_eq fun _ => rfl) rfl rfl (fun _ => rfl) rfl rfl
  | abort a => exact State.keepsOperation_of_cores (.of_eq fun _ => rfl) rfl rfl (fun _ => rfl) rfl rfl

/-! ## The operation in flight, by its kind -/

/-- The lowest FREE record is the same where the same records are FREE. -/
theorem State.freeRecords_congr {s t : State} (h : ∀ i, t.placement? i = none ↔ s.placement? i = none) :
    t.freeRecords = s.freeRecords := by
  unfold State.freeRecords
  congr 1
  funext i
  rw [Bool.eq_iff_iff, Option.isNone_iff_eq_none, Option.isNone_iff_eq_none]
  exact h i

theorem State.KeepsOperation.free_iff {s t : State} (h : s.KeepsOperation t) (i : RecordNo) :
    t.placement? i = none ↔ s.placement? i = none := by
  refine ⟨fun ht => ?_, h.free i⟩
  cases hs : s.placement? i with
  | none => rfl
  | some p =>
    obtain ⟨q, hq, _⟩ := h.used i p hs
    rw [ht] at hq
    cases hq

/-- What the operation in flight found still holds. -/
theorem State.OperationHolds.keeps {s t : State} (h : s.OperationHolds) (hk : s.KeepsOperation t) : t.OperationHolds := by
  unfold State.OperationHolds at h ⊢
  rw [hk.engine]
  cases he : s.engine with
  | idle => trivial
  | scan op =>
    rw [he] at h
    cases hc : op.request.command with
    | create p =>
      simp only [hc] at h ⊢
      rw [State.lowestFree, State.freeRecords_congr hk.free_iff, hk.keys]
      exact h
    | amend p =>
      simp only [hc] at h ⊢
      obtain ⟨i, b, ⟨hi, hb, hgeneration⟩, hd, hpending⟩ := h
      obtain ⟨q, hq, hkeeps⟩ := hk.used i b hb
      exact ⟨i, q, ⟨hi, hq, (hk.generations i).trans hgeneration⟩, hkeeps.drain.trans hd, hkeeps.pending hpending⟩
    | definePlane p => simp only [hc] at h ⊢; exact h
    | setAttributes | retire | lookup | query | configureLink | configureFramestore | setLevels | readCounters | sync =>
      simp only [hc] at h
  | fence op =>
    rw [he] at h
    cases hr : op.request with
    | sync r => simp only [hr]
    | commit i =>
      simp only [hr] at h ⊢
      obtain ⟨p, hp, htarget, hne, hbit⟩ := h
      obtain ⟨q, hq, hkeeps⟩ := hk.used i p hp
      obtain ⟨hsuperseded, hbit'⟩ := hkeeps.superseded (htarget ▸ hne)
      exact ⟨q, hq, htarget.trans hsuperseded.symm, hne, Bool.eq_false_iff.mpr fun ht => by rw [hbit' ht] at hbit; cases hbit⟩
    | release i =>
      simp only [hr] at h ⊢
      obtain ⟨p, hp, hd, hc, htarget, hbit⟩ := h
      obtain ⟨q, hq, hkeeps⟩ := hk.used i p hp
      obtain ⟨hclaim, hbit'⟩ := hkeeps.draining hd hc
      exact ⟨q, hq, by rw [hkeeps.drain]; exact hd, hclaim, htarget.trans hkeeps.occupied.symm,
        Bool.eq_false_iff.mpr fun ht => by rw [hbit' ht] at hbit; cases hbit⟩

/-- The data path keeps the agreement of the tables. -/
theorem State.TablesAgree.dataPath {s t : State} (h : s.TablesAgree) (path : s.DataPath t) : t.TablesAgree := by
  refine State.DataPath.keeps (fun s t h hmove => ?_) h path
  obtain ⟨hsettled, hoperation⟩ := State.tablesAgree_iff.mp h
  exact State.tablesAgree_iff.mpr ⟨hsettled.move hmove, hoperation.keeps (hsettled.keepsOperation_move hmove)⟩

end Sys2Proof.Machine

/-! SUPPORT. The agreement of the tables where an operation starts, drains a record, or ends (R5, R7, R11, R15, R46, R77). -/

namespace Sys2Proof.Machine

/-! ## Where no operation is in flight -/

theorem State.TablesSettled.agree_idle {s : State} (h : s.TablesSettled) (he : s.engine = .idle) : s.TablesAgree :=
  State.tablesAgree_iff.mpr ⟨h, by simp only [State.OperationHolds, he]⟩

theorem State.TablesSettled.post {s : State} (h : s.TablesSettled) (r : Response) : (s.post r).TablesAgree :=
  State.TablesSettled.agree_idle (s := s.post r) h rfl

theorem State.TablesSettled.dropped {s : State} (h : s.TablesSettled) : s.dropped.TablesAgree :=
  State.TablesSettled.agree_idle (s := s.dropped) h rfl

theorem State.TablesSettled.finish {s : State} (h : s.TablesSettled) (r : CommandRecord) (status : Status)
    (payload : Payload) (found : Option Handle) : (s.finish r status payload found).TablesAgree := h.post _

/-! ## The start of an operation (R46, R77) -/

theorem look_put_false {n : Nat} {v : Vector Bool n} {i j : Fin n} (h : look (put v i false) j = true) :
    look v j = true := by
  rw [look_put] at h
  split_ifs at h
  exact h

/-- A start clears at most one pending bit (R77). -/
theorem State.sets_begun (s : State) (x : Source) (q : Request) (i : RecordNo) :
    (look (s.begun x q).releaseSet i = true → look s.releaseSet i = true) ∧
      (look (s.begun x q).commitSet i = true → look s.commitSet i = true) ∧
      (look (s.begun x q).expirySet i = true → look s.expirySet i = true) := by
  unfold State.begun
  simp only
  split
  · exact ⟨id, id, id⟩
  · exact ⟨look_put_false, id, id⟩
  · exact ⟨id, look_put_false, id⟩
  · exact ⟨id, id, look_put_false⟩
  · exact ⟨id, id, id⟩
  · exact ⟨id, id, id⟩
  · exact ⟨id, id, id⟩
  · split <;> exact ⟨id, id, id⟩

theorem State.TablesSettled.begun {s : State} (h : s.TablesSettled) (x : Source) (q : Request) :
    (s.begun x q).TablesSettled := by
  obtain ⟨hactive, hkeys, hclaims, haborts, hbits⟩ := h
  have hcores : s.SameCores (s.begun x q) := .of_eq (State.begun_placement? s x q)
  exact ⟨hactive.sameCores hcores, hkeys.sameCores hcores (s.begun_keyIndex x q),
    hclaims.sameCores hcores (.of_eq (State.context?_congr (s.begun_links x q))),
    haborts.sameCores hcores (by rw [State.begun_aborts]; exact fun _ => id),
    hbits.sameCores hcores (fun i => (s.sets_begun x q i).1) (fun i => (s.sets_begun x q i).2.1)
      fun i hi => .inl ((s.sets_begun x q i).2.2 hi)⟩

/-- The Commit bit of the record of a COMMIT that starts was set, and is cleared (R69, R77). -/
theorem State.Starts.commit_bit {s : State} {i : RecordNo} (hs : s.Starts .commitSet (.internal i)) :
    look s.commitSet i = true ∧ look (s.begun .commitSet (.internal i)).commitSet i = false := by
  obtain ⟨_, _, hoffer, _⟩ := hs
  exact ⟨((map_lowestSet_eq_some s.commitSet i).mp hoffer).1, look_put_same s.commitSet i false⟩

/-- The Release bit of the record of a RELEASE that starts was set, and is cleared (R69, R77). -/
theorem State.Starts.release_bit {s : State} {i : RecordNo} (hs : s.Starts .releaseSet (.internal i)) :
    look s.releaseSet i = true ∧ look (s.begun .releaseSet (.internal i)).releaseSet i = false := by
  obtain ⟨_, _, hoffer, _⟩ := hs
  exact ⟨((map_lowestSet_eq_some s.releaseSet i).mp hoffer).1, look_put_same s.releaseSet i false⟩

/-! ## A record drains (R5, R18, R74) -/

/-- An unclaimed record has its Release bit at once; a claimed one may have an abort request sent. -/
theorem State.drain_cases (s : State) (i : RecordNo) (p : Placement) (cause : DrainCause) (abort : Bool) :
    (p.claim = none ∧ s.drain i p cause abort =
      { s.setPlacement i { p with drain := some cause } with
        keyIndex := put s.keyIndex p.key.place none, releaseSet := put s.releaseSet i true }) ∨
    ∃ c as, p.claim = some c ∧ (∀ a ∈ as, a ∈ s.aborts ∨ a = { record := i, context := c }) ∧
      s.drain i p cause abort =
        { s.setPlacement i { p with drain := some cause } with keyIndex := put s.keyIndex p.key.place none, aborts := as } := by
  unfold State.drain
  cases hc : p.claim with
  | none => exact .inl ⟨rfl, rfl⟩
  | some c =>
    right
    cases abort with
    | true => exact ⟨c, _, rfl, fun a ha => (List.mem_append.mp ha).imp_right List.mem_singleton.mp, rfl⟩
    | false => exact ⟨c, s.aborts, rfl, fun a ha => .inl ha, rfl⟩

theorem State.rewrites_drain {s : State} {i : RecordNo} {p : Placement} (hp : s.placement? i = some p) (cause : DrainCause)
    (abort : Bool) : s.Rewrites (s.drain i p cause abort) i p { p with drain := some cause } := by
  rcases s.drain_cases i p cause abort with ⟨-, heq⟩ | ⟨c, as, -, -, heq⟩
  · rw [heq]
    exact { State.rewrites_setPlacement hp _ with }
  · rw [heq]
    exact { State.rewrites_setPlacement hp _ with }

/-- A record that drains leaves the pool, the planes, the receivers and the queue. -/
theorem State.drain_leaves (s : State) (i : RecordNo) (p : Placement) (cause : DrainCause) (abort : Bool) :
    (s.drain i p cause abort).pool = s.pool ∧ (s.drain i p cause abort).planes = s.planes ∧
      (s.drain i p cause abort).links = s.links ∧ (s.drain i p cause abort).lastGranted = s.lastGranted ∧
      (s.drain i p cause abort).bursts = s.bursts := by
  rcases s.drain_cases i p cause abort with ⟨-, heq⟩ | ⟨c, as, -, -, heq⟩
  · rw [heq]
    exact ⟨rfl, rfl, rfl, rfl, rfl⟩
  · rw [heq]
    exact ⟨rfl, rfl, rfl, rfl, rfl⟩

/-- The Key Index gives up the key of the record that drains (R23). -/
theorem State.KeysAgree.drained {s t : State} (h : s.KeysAgree) {i : RecordNo} {p q : Placement} (hw : s.Rewrites t i p q)
    (hlive : p.drain = none) (hdrained : q.drain ≠ none) (hkeys : t.keyIndex = put s.keyIndex p.key.place none) :
    t.KeysAgree := fun k j => by
  have hown : look s.keyIndex p.key.place = some i := (h p.key i).mpr ⟨p, hw.before, hlive, rfl⟩
  rw [hkeys]
  by_cases hk : p.key = k
  · subst hk
    rw [look_put_same]
    refine ⟨(nomatch ·), fun ⟨r, hr, hd, hkey⟩ => ?_⟩
    by_cases hj : j = i
    · rw [hj, hw.after] at hr
      cases hr
      exact absurd hd hdrained
    · have hother := (h p.key j).mpr ⟨r, (hw.others j hj).symm.trans hr, hd, hkey⟩
      rw [hown] at hother
      exact absurd (Option.some.inj hother).symm hj
  · rw [look_put_ne _ _ fun hplace => hk (Key.place_injective hplace), h k j]
    by_cases hj : j = i
    · rw [hj, hw.before, hw.after]
      refine ⟨fun ⟨r, hr, _, hkey⟩ => ?_, fun ⟨r, hr, hd, _⟩ => ?_⟩
      · cases hr; exact absurd hkey hk
      · cases hr; exact absurd hd hdrained
    · rw [hw.others j hj]

theorem State.TablesSettled.drain {s : State} (h : s.TablesSettled) {i : RecordNo} {p : Placement}
    (hp : s.placement? i = some p) (hd : p.drain = none) (cause : DrainCause) (abort : Bool) :
    (s.drain i p cause abort).TablesSettled := by
  obtain ⟨hactive, hkeys, hclaims, haborts, hbits⟩ := h
  have hone := hactive i p hp
  have hunreleased : ¬ look s.releaseSet i = true := fun hi => by
    obtain ⟨q, hq, hdrain, _⟩ := hbits.release hi
    rw [hp] at hq
    cases hq
    rw [hd] at hdrain
    cases hdrain
  have hsuperseded (hi : look s.commitSet i = true) : p.slotsIn .superseded ≠ [] := by
    obtain ⟨q, hq, hs⟩ := hbits.commit hi
    rw [hp] at hq
    cases hq
    exact hs
  have habort : ∀ a ∈ s.aborts, a.record = i → p.claim = some a.context := fun a ha hi => by
    obtain ⟨q, hq, _, hc⟩ := haborts a ha
    rw [hi, hp] at hq
    cases hq
    exact hc
  have hw := State.rewrites_drain hp cause abort
  rcases s.drain_cases i p cause abort with ⟨hc, heq⟩ | ⟨c, as, hc, has, heq⟩
  · rw [heq] at hw ⊢
    exact ⟨hactive.rewrites hw hone, hkeys.drained hw hd nofun rfl, hclaims.rewrites hw (.of_eq fun _ _ => rfl) rfl rfl,
      haborts.rewrites hw (fun _ ha _ => ha) (fun a ha hi => ⟨rfl, habort a ha hi⟩),
      hbits.rewrites hw (fun j hj hb => by rwa [look_put_ne _ _ (Ne.symm hj)] at hb) (fun _ _ => id) (fun _ => id)
        (fun _ => ⟨rfl, hc⟩) hsuperseded⟩
  · rw [heq] at hw ⊢
    refine ⟨hactive.rewrites hw hone, hkeys.drained hw hd nofun rfl, hclaims.rewrites hw (.of_eq fun _ _ => rfl) rfl rfl,
      haborts.rewrites hw (fun a ha hi => (has a ha).resolve_right fun he => hi (by rw [he])) (fun a ha hi => ⟨rfl, ?_⟩),
      hbits.rewrites hw (fun _ _ => id) (fun _ _ => id) (fun _ => id) (fun hb => absurd hb hunreleased) hsuperseded⟩
    rcases has a ha with ha | rfl
    · exact habort a ha hi
    · exact hc

/-! ## Slots written and emptied -/

/-- A slot that is in another state before and after does not matter to a search. -/
theorem Placement.slotsIn_withSlot {p : Placement} {x : SlotLetter} {v : Option Slot} {ph : SlotPhase}
    (hold : ∀ g, p.slot x = some g → g.phase ≠ ph) (hnew : ∀ g, v = some g → g.phase ≠ ph) :
    (p.withSlot x v).slotsIn ph = p.slotsIn ph := by
  refine List.filter_congr fun y _ => ?_
  have hphase : (p.withSlot x v).phase? y = some ph ↔ p.phase? y = some ph := by
    unfold Placement.phase?
    by_cases hy : y = x
    · rw [hy, Placement.slot_withSlot_same]
      refine iff_of_false (fun h => ?_) fun h => ?_
      · obtain ⟨g, hg, hph⟩ := Option.map_eq_some_iff.mp h
        exact hnew g hg hph
      · obtain ⟨g, hg, hph⟩ := Option.map_eq_some_iff.mp h
        exact hold g hg hph
    · have hother : y = x.other := by cases x <;> cases y <;> simp_all [SlotLetter.other]
      rw [hother, Placement.slot_withSlot_other]
  rw [Bool.eq_iff_iff, decide_eq_true_iff, decide_eq_true_iff]
  exact hphase

/-- Beside the ACTIVE slot, the SUPERSEDED one is one slot (R10). -/
theorem Placement.superseded_eq_one {p : Placement} (h : (p.slotsIn .active).length = 1) (hs : p.slotsIn .superseded ≠ []) :
    ∃ x g, p.slotsIn .superseded = [x] ∧ p.slot x = some g ∧ g.phase = .superseded := by
  have hle := p.length_slotsIn_le
  have hpos := List.length_pos_iff.mpr hs
  obtain ⟨x, hx⟩ := List.length_eq_one_iff.mp (show (p.slotsIn .superseded).length = 1 by omega)
  have hphase : p.phase? x = some .superseded := Placement.mem_slotsIn.mp (by rw [hx]; exact List.mem_singleton.mpr rfl)
  obtain ⟨g, hg, hph⟩ := Option.map_eq_some_iff.mp hphase
  exact ⟨x, g, hx, hg, hph⟩

/-- A record with one ACTIVE slot and none pending has an EMPTY one (R10, R97). -/
theorem Placement.slot_emptySlot {p : Placement} (h : (p.slotsIn .active).length = 1) (hp : p.pendingPhase = none) :
    p.slot p.emptySlot = none := by
  obtain ⟨hstaged, hsuperseded⟩ := Placement.pendingPhase_eq_none.mp hp
  have hactive (x : SlotLetter) (g : Slot) (hg : p.slot x = some g) : g.phase = .active := by
    have hmem : p.phase? x = some g.phase := by rw [Placement.phase?, hg]; rfl
    cases hph : g.phase with
    | active => rfl
    | staged =>
      have hx := Placement.mem_slotsIn.mpr (hmem.trans (congrArg some hph))
      rw [hstaged] at hx
      cases hx
    | superseded =>
      have hx := Placement.mem_slotsIn.mpr (hmem.trans (congrArg some hph))
      rw [hsuperseded] at hx
      cases hx
  unfold Placement.emptySlot
  cases ha : p.slotA with
  | none => exact ha
  | some g =>
    simp only [Option.isNone_some, Bool.false_eq_true, if_false]
    cases hb : p.slotB with
    | none => exact hb
    | some g' =>
      have hga := hactive .a g ha
      have hgb := hactive .b g' hb
      simp [Placement.slotsIn, Placement.phase?, Placement.slot, ha, hb, hga, hgb] at h

end Sys2Proof.Machine

/-! SUPPORT. The agreement of the tables where a fence or a scan completes (R4, R7, R11, R15, R53). -/

namespace Sys2Proof.Machine

/-! ## The ends of COMMIT and RELEASE (R7, R15) -/

/-- A record passes from fields `p` to FREE, and every other is left. -/
structure State.Frees (s t : State) (i : RecordNo) (p : Placement) : Prop where
  before : s.placement? i = some p
  after : t.placement? i = none
  others : ∀ j, j ≠ i → t.placement? j = s.placement? j

/-- A DRAINING record that is unclaimed becomes FREE (R7). -/
theorem State.TablesSettled.frees {s t : State} (h : s.TablesSettled) {i : RecordNo} {p : Placement} (hf : s.Frees t i p)
    (hd : p.drain.isSome = true) (hc : p.claim = none) (hkeys : t.keyIndex = s.keyIndex) (hlinks : t.links = s.links)
    (haborts : t.aborts = s.aborts) (hreleased : look s.releaseSet i = false) (hrelease : t.releaseSet = s.releaseSet)
    (hcommit : t.commitSet = put s.commitSet i false) (hexpiry : t.expirySet = put s.expirySet i false) :
    t.TablesSettled := by
  obtain ⟨hactive, hkeysAgree, hclaims, habortsAgree, hbits⟩ := h
  have hused {j : RecordNo} {q : Placement} (hq : t.placement? j = some q) : s.placement? j = some q := by
    rw [← hf.others j fun hj => by rw [hj, hf.after] at hq; cases hq]
    exact hq
  have hother {j : RecordNo} {q : Placement} (hq : s.placement? j = some q) (hj : j ≠ i) : t.placement? j = some q :=
    (hf.others j hj).trans hq
  have hcontext := State.context?_congr hlinks
  refine ⟨fun j q hq => hactive j q (hused hq), fun k j => ?_, ⟨fun j q c hq hclaim => ?_, fun l c f j hframe hj => ?_⟩,
    fun a ha => ?_, ⟨fun j hj => ?_, fun j hj => ?_, fun j hj => ?_⟩⟩
  · rw [hkeys, hkeysAgree k j]
    refine ⟨fun ⟨q, hq, hlive, hk⟩ => ⟨q, hother hq fun hj => ?_, hlive, hk⟩, fun ⟨q, hq, hlive, hk⟩ => ⟨q, hused hq, hlive, hk⟩⟩
    rw [hj, hf.before] at hq
    cases hq
    rw [hlive] at hd
    cases hd
  · obtain ⟨hk, hclaimed⟩ := hclaims.1 j q c (hused hq) hclaim
    rw [hcontext]
    exact ⟨hk, hclaimed⟩
  · rw [hcontext] at hframe
    obtain ⟨q, hq, hclaim⟩ := hclaims.2 l c f j hframe hj
    refine ⟨q, hother hq fun hji => ?_, hclaim⟩
    rw [hji, hf.before] at hq
    cases hq
    rw [hc] at hclaim
    cases hclaim
  · rw [haborts] at ha
    obtain ⟨q, hq, hdrain, hclaim⟩ := habortsAgree a ha
    refine ⟨q, hother hq fun hj => ?_, hdrain, hclaim⟩
    rw [hj, hf.before] at hq
    cases hq
    rw [hc] at hclaim
    cases hclaim
  · rw [hrelease] at hj
    obtain ⟨q, hq, hrest⟩ := hbits.release hj
    exact ⟨q, hother hq fun hji => (by rw [hji, hreleased] at hj; cases hj), hrest⟩
  · have hji : j ≠ i := fun hji => by rw [hcommit, hji, look_put_same] at hj; cases hj
    obtain ⟨q, hq, hrest⟩ := hbits.commit (look_put_false (i := i) (by rwa [hcommit] at hj))
    exact ⟨q, hother hq hji, hrest⟩
  · have hji : j ≠ i := fun hji => by rw [hexpiry, hji, look_put_same] at hj; cases hj
    rw [hf.others j hji]
    exact hbits.expiry (look_put_false (i := i) (by rwa [hexpiry] at hj))

/-- The state in which a COMMIT has emptied its target (R15, R35). -/
def State.emptied (s : State) (i : RecordNo) (p : Placement) (x : SlotLetter) (g : Slot) : State :=
  { s.setPlacement i (p.withSlot x none) with pool := emptyPool s.pool g.entries }

/-- The state in which a RELEASE has made its record FREE (R7, R35). -/
def State.freed (s : State) (i : RecordNo) (p : Placement) (target : List SlotLetter) : State :=
  { s with
    records := put s.records i { generation := (look s.records i).generation + 1, placement := none }
    pool := emptyPool s.pool (p.entriesOf target)
    commitSet := put s.commitSet i false
    expirySet := put s.expirySet i false }

theorem State.completeRelease_freed {s : State} {i : RecordNo} {p : Placement} (hp : s.placement? i = some p)
    (hd : p.drain.isSome = true) (target : List SlotLetter) :
    ∃ r, s.completeRelease i target = (s.freed i p target).post r := by
  obtain ⟨cause, hcause⟩ := Option.isSome_iff_exists.mp hd
  exact ⟨_, State.completeRelease_some hp hcause target⟩

theorem State.frees_freed {s : State} {i : RecordNo} {p : Placement} (hp : s.placement? i = some p)
    (target : List SlotLetter) : s.Frees (s.freed i p target) i p where
  before := hp
  after := by simp only [State.placement?, State.freed, look_put_same]
  others j hj := by simp only [State.placement?, State.freed, look_put_ne _ _ (Ne.symm hj)]

theorem State.TablesSettled.emptied {s : State} (h : s.TablesSettled) {i : RecordNo} {p : Placement} {x : SlotLetter} {g : Slot}
    (hp : s.placement? i = some p) (hg : p.slot x = some g) (hph : g.phase = .superseded)
    (hbit : look s.commitSet i = false) : (s.emptied i p x g).TablesSettled := by
  obtain ⟨hactive, hkeys, hclaims, haborts, hbits⟩ := h
  have hw : s.Rewrites (s.emptied i p x g) i p (p.withSlot x none) := { State.rewrites_setPlacement hp _ with }
  have hslots : (p.withSlot x none).slotsIn .active = p.slotsIn .active :=
    Placement.slotsIn_withSlot (fun g' hg' => by
      rw [hg] at hg'
      cases hg'
      rw [hph]
      exact nofun) (fun _ hno => nomatch hno)
  refine ⟨hactive.rewrites hw (by rw [hslots]; exact hactive i p hp), hkeys.rewrites hw rfl (p.withSlot_key x none)
    (p.withSlot_drain x none), hclaims.rewrites hw (.of_eq fun _ _ => rfl) (p.withSlot_key x none) (p.withSlot_claim x none),
    haborts.rewrites hw (fun _ ha _ => ha) (fun a ha hi => ?_), hbits.rewrites hw (fun _ _ => id) (fun _ _ => id) (fun _ => id)
      (fun hi => ?_) (fun hi => ?_)⟩
  · obtain ⟨q, hq, hrest⟩ := haborts a ha
    rw [hi, hp] at hq
    cases hq
    rwa [p.withSlot_drain, p.withSlot_claim]
  · obtain ⟨q, hq, hrest⟩ := hbits.release hi
    rw [hp] at hq
    cases hq
    rwa [p.withSlot_drain, p.withSlot_claim]
  · have hb : look s.commitSet i = true := hi
    rw [hbit] at hb
    cases hb

/-- A fence that ends completes its operation with the tables in agreement. -/
theorem State.TablesSettled.completeFence {s : State} (h : s.TablesSettled) {op : FenceOperation}
    (ho : ({ s with engine := .fence op } : State).OperationHolds) : (s.completeFence op).TablesAgree := by
  simp only [State.OperationHolds] at ho
  unfold State.completeFence
  cases hr : op.request with
  | sync r => exact h.finish r .ok .empty none
  | commit i =>
    simp only [hr] at ho
    obtain ⟨p, hp, htarget, hne, hbit⟩ := ho
    have hplaced : s.placement? i = some p := hp
    obtain ⟨x, g, hx, hg, hph⟩ := Placement.superseded_eq_one (h.oneActive i p hplaced) (htarget ▸ hne)
    simp only
    rw [htarget, hx, State.completeCommit_one hplaced hg]
    exact (h.emptied hplaced hg hph hbit).post _
  | release i =>
    simp only [hr] at ho
    obtain ⟨p, hp, hd, hc, -, hbit⟩ := ho
    have hplaced : s.placement? i = some p := hp
    obtain ⟨r, heq⟩ := State.completeRelease_freed hplaced hd op.target
    simp only
    rw [heq]
    exact (h.frees (State.frees_freed hplaced op.target) hd hc rfl rfl rfl hbit rfl rfl rfl).post r

/-- A fence starts, or ends at once. -/
theorem State.TablesSettled.startFence {s : State} (h : s.TablesSettled) {op : FenceOperation}
    (ho : ({ s with engine := .fence op } : State).OperationHolds) : (s.startFence op).TablesAgree := by
  unfold State.startFence
  split
  · exact State.tablesAgree_iff.mpr ⟨h, ho⟩
  · exact h.completeFence ho

/-! ## The ends of CREATE and AMEND (R4, R11) -/

/-- The state in which a CREATE has taken a FREE record (R1, R4, R34). -/
def State.created (s : State) (i : RecordNo) (k : Key) (p : CreateParams) : State :=
  { (s.allocate i .a p.used).setPlacement i (p.placement k (s.allocated p.used)) with
    keyIndex := put s.keyIndex k.place (some i) }

/-- A FREE record becomes LIVE with a key that no LIVE record holds (R4, R23). -/
theorem State.TablesSettled.created {s : State} (h : s.TablesSettled) {i : RecordNo} {k : Key} {p : CreateParams}
    (hfree : s.placement? i = none) (hk : look s.keyIndex k.place = none) : (s.created i k p).TablesSettled := by
  obtain ⟨hactive, hkeys, hclaims, haborts, hbits⟩ := h
  obtain ⟨q, hq⟩ : ∃ q, q = p.placement k (s.allocated p.used) := ⟨_, rfl⟩
  obtain ⟨t, ht⟩ : ∃ t, t = s.created i k p := ⟨_, rfl⟩
  have hplaced (j : RecordNo) : t.placement? j = if i = j then some q else s.placement? j := by
    rw [ht, hq]
    exact State.placement?_setPlacement _ i j _
  have hother {j : RecordNo} {r : Placement} (hr : s.placement? j = some r) : t.placement? j = some r := by
    rw [hplaced, if_neg fun hj => by rw [← hj, hfree] at hr; cases hr]
    exact hr
  have hcases {j : RecordNo} {r : Placement} (hr : t.placement? j = some r) : (j = i ∧ r = q) ∨ s.placement? j = some r := by
    rw [hplaced] at hr
    split_ifs at hr with hj
    · exact .inl ⟨hj.symm, (Option.some.inj hr).symm⟩
    · exact .inr hr
  have hone : (q.slotsIn .active).length = 1 := by rw [hq]; rfl
  have hqkey : q.key = k := by rw [hq]; rfl
  have hqclaim : q.claim = none := by rw [hq]; rfl
  have hqdrain : q.drain = none := by rw [hq]; rfl
  have hindex : t.keyIndex = put s.keyIndex k.place (some i) := by rw [ht]; rfl
  have hcontext (l : LinkNo) (c : Channel) : t.context? l c = s.context? l c := by rw [ht]; rfl
  have hsets : t.aborts = s.aborts ∧ t.releaseSet = s.releaseSet ∧ t.commitSet = s.commitSet ∧ t.expirySet = s.expirySet := by
    rw [ht]
    exact ⟨rfl, rfl, rfl, rfl⟩
  obtain ⟨haborts', hrelease, hcommit, hexpiry⟩ := hsets
  rw [← ht]
  refine ⟨fun j r hr => ?_, fun k' j => ?_, ⟨fun j r c hr hc => ?_, fun l c f j hf hj => ?_⟩, fun a ha => ?_,
    ⟨fun j hj => ?_, fun j hj => ?_, fun j hj => ?_⟩⟩
  · rcases hcases hr with ⟨_, rfl⟩ | hr
    · exact hone
    · exact hactive j r hr
  · rw [hindex]
    by_cases hkk : k = k'
    · subst hkk
      rw [look_put_same]
      refine ⟨fun hj => ⟨q, by rw [hplaced, if_pos (Option.some.inj hj)], hqdrain, hqkey⟩, fun ⟨r, hr, hd, hkey⟩ => ?_⟩
      rcases hcases hr with ⟨rfl, _⟩ | hr
      · rfl
      · have hno := (hkeys k j).mpr ⟨r, hr, hd, hkey⟩
        rw [hk] at hno
        cases hno
    · rw [look_put_ne _ _ fun hplace => hkk (Key.place_injective hplace), hkeys k' j]
      refine ⟨fun ⟨r, hr, hrest⟩ => ⟨r, hother hr, hrest⟩, fun ⟨r, hr, hd, hkey⟩ => ?_⟩
      rcases hcases hr with ⟨_, rfl⟩ | hr
      · exact absurd (hqkey.symm.trans hkey) hkk
      · exact ⟨r, hr, hd, hkey⟩
  · rcases hcases hr with ⟨_, rfl⟩ | hr
    · rw [hqclaim] at hc
      cases hc
    · rw [hcontext]
      exact hclaims.1 j r c hr hc
  · rw [hcontext] at hf
    obtain ⟨r, hr, hclaim⟩ := hclaims.2 l c f j hf hj
    exact ⟨r, hother hr, hclaim⟩
  · obtain ⟨r, hr, hrest⟩ := haborts a (haborts' ▸ ha)
    exact ⟨r, hother hr, hrest⟩
  · obtain ⟨r, hr, hrest⟩ := hbits.release (hrelease ▸ hj)
    exact ⟨r, hother hr, hrest⟩
  · obtain ⟨r, hr, hrest⟩ := hbits.commit (hcommit ▸ hj)
    exact ⟨r, hother hr, hrest⟩
  · obtain ⟨r, hr⟩ := Option.isSome_iff_exists.mp (hbits.expiry (hexpiry ▸ hj))
    rw [hother hr]
    rfl

/-- An AMEND writes the EMPTY slot (R11). -/
theorem State.TablesSettled.staging {s : State} (h : s.TablesSettled) {i : RecordNo} {b : Placement} {x : SlotLetter}
    (hb : s.placement? i = some b) (hx : b.slot x = none) (p : AmendParams) : (s.staging i b x p).TablesSettled := by
  obtain ⟨hactive, hkeys, hclaims, haborts, hbits⟩ := h
  obtain ⟨v, hv⟩ : ∃ v, v = p.stagedSlot (s.allocated p.used) := ⟨_, rfl⟩
  have hw : s.Rewrites (s.staging i b x p) i b (b.withSlot x (some v)) := by
    rw [hv]
    exact { State.rewrites_setPlacement hb _ with }
  have hslots (ph : SlotPhase) (hph : ph ≠ .staged) : (b.withSlot x (some v)).slotsIn ph = b.slotsIn ph :=
    Placement.slotsIn_withSlot (fun g hg => by rw [hx] at hg; cases hg) (fun g hg => by
      cases hg
      rw [hv]
      exact Ne.symm hph)
  refine ⟨hactive.rewrites hw (by rw [hslots .active nofun]; exact hactive i b hb), hkeys.rewrites hw rfl (b.withSlot_key x _)
    (b.withSlot_drain x _), hclaims.rewrites hw (.of_eq fun _ _ => rfl) (b.withSlot_key x _) (b.withSlot_claim x _),
    haborts.rewrites hw (fun _ ha _ => ha) (fun a ha hi => ?_), hbits.rewrites hw (fun _ _ => id) (fun _ _ => id) (fun _ => id)
      (fun hi => ?_) (fun hi => ?_)⟩
  · obtain ⟨q, hq, hrest⟩ := haborts a ha
    rw [hi, hb] at hq
    cases hq
    rwa [b.withSlot_drain, b.withSlot_claim]
  · obtain ⟨q, hq, hrest⟩ := hbits.release hi
    rw [hb] at hq
    cases hq
    rwa [b.withSlot_drain, b.withSlot_claim]
  · obtain ⟨q, hq, hrest⟩ := hbits.commit hi
    rw [hb] at hq
    cases hq
    rwa [hslots .superseded nofun]

/-- A scan that ends without a conflict completes its operation with the tables in agreement. -/
theorem State.TablesAgree.completeScan {s : State} (h : s.TablesAgree) {op : ScanOperation} (he : s.engine = .scan op) :
    (s.completeScan op.request).TablesAgree := by
  obtain ⟨hsettled, ho⟩ := State.tablesAgree_iff.mp h
  simp only [State.OperationHolds, he] at ho
  unfold State.completeScan
  cases hc : op.request.command with
  | create p =>
    simp only [hc] at ho ⊢
    obtain ⟨hsome, k, hk, hfree⟩ := ho
    obtain ⟨i, hi⟩ := Option.isSome_iff_exists.mp hsome
    rw [State.completeCreate_some hi hk]
    exact (hsettled.created (p := p) ((s.lowestFree_eq_some i).mp hi).1 hfree).finish _ _ _ _
  | amend p =>
    simp only [hc] at ho ⊢
    obtain ⟨i, b, ⟨hindex, hb, -⟩, -, hpending⟩ := ho
    have hstaging := hsettled.staging hb (Placement.slot_emptySlot (hsettled.oneActive i b hb) hpending) p
    rw [State.completeAmend_some (inRange?_eq_some.mpr hindex) hb]
    split
    · exact (hstaging.takeFlip i).finish _ _ _ _
    · exact hstaging.finish _ _ _ _
  | definePlane p =>
    simp only
    unfold State.completeDefinePlane
    split
    · exact hsettled.dropped
    · next q _ =>
      have hplanes : ({ s with planes := put s.planes q p.descriptor? } : State).TablesSettled := hsettled
      exact hplanes.finish _ _ _ _
  | setAttributes | retire | lookup | query | configureLink | configureFramestore | setLevels | readCounters | sync =>
    simp only [hc] at ho

theorem State.TablesAgree.stepScan {s : State} (h : s.TablesAgree) {op : ScanOperation} (he : s.engine = .scan op) :
    (s.stepScan op).TablesAgree := by
  obtain ⟨hsettled, ho⟩ := State.tablesAgree_iff.mp h
  unfold State.stepScan
  split
  · have hdraws : ({ s with draws := s.draws + 1 } : State).TablesSettled := hsettled
    exact hdraws.finish _ _ _ _
  · next position _ =>
    refine State.tablesAgree_iff.mpr ⟨hsettled, ?_⟩
    simp only [State.OperationHolds, he] at ho ⊢
    exact ho
  · exact h.completeScan he

end Sys2Proof.Machine

/-! SUPPORT. The agreement of the tables through every event (R10, R16, R18, R23, R48, R77). -/

namespace Sys2Proof.Machine

/-! ## Runs -/

/-- An operation that the start checks let scan enters SCAN. -/
theorem State.TablesSettled.enterScan {u : State} (h : u.TablesSettled) {x : Source} {r : CommandRecord}
    {position : ScanPosition} (ho : (u.enterScan x r position).OperationHolds) : (u.enterScan x r position).TablesAgree :=
  State.tablesAgree_iff.mpr ⟨h, ho⟩

/-- A CREATE that passes its checks has a FREE record and a free key (R94). -/
theorem State.createDenial_eq_none {s : State} {p : CreateParams} (h : s.createDenial p = none) :
    s.lowestFree.isSome = true ∧ ∃ k, Key.ofBytes? p.link p.channel = some k ∧
      ¬ ((look s.links k.link).single = true ∧ k.channel ≠ 0) ∧ look s.keyIndex k.place = none ∧
      geometryFault p.width p.height p.count p.used = none ∧ s.slotDenial k.link p.used = none := by
  unfold State.createDenial at h
  split at h
  · cases h
  · next hgeometry =>
    split at h
    · cases h
    · next k hk =>
      split at h
      · cases h
      · next hsingle =>
        split at h
        · cases h
        next hkey =>
        split at h
        · cases h
        next hfull =>
        refine ⟨?_, k, hk, hsingle, hkey, hgeometry, h⟩
        have hpos : s.freeRecords ≠ [] := fun hnil => hfull (by rw [State.tableFree, hnil]; rfl)
        obtain ⟨i, rest, hcons⟩ := List.exists_cons_of_ne_nil hpos
        rw [State.lowestFree, hcons]
        rfl

/-- An AMEND that passes its checks names a LIVE record with an EMPTY slot (R97). -/
theorem State.amendDenial_eq_none {s : State} {p : AmendParams} (h : s.amendDenial p = none) :
    ∃ i b, s.Names p.handle i b ∧ b.drain = none ∧ b.pendingPhase = none ∧
      geometryFault p.width p.height p.count p.used = none ∧ s.slotDenial b.key.link p.used = none := by
  unfold State.amendDenial at h
  split at h
  · cases h
  · next i b hlive =>
    obtain ⟨hnames, hd⟩ := State.checkLive_eq_inr hlive
    split at h
    · cases h
    · next hpending =>
      split at h
      · cases h
      · next hgeometry => exact ⟨i, b, hnames, hd, hpending, hgeometry, h⟩

/-- A record written with the same core keeps the agreement. -/
theorem State.TablesSettled.setPlacement {u : State} (h : u.TablesSettled) {i : RecordNo} {b b' : Placement}
    (used : u.placement? i = some b) (core : b'.core = b.core) : (u.setPlacement i b').TablesSettled :=
  h.move (.report i b b' used core)

/-- A receiver written with the same contexts keeps the agreement. -/
theorem State.TablesSettled.setLink {u : State} (h : u.TablesSettled) {l : LinkNo} {k : Link}
    (contexts : k.contexts = (look u.links l).contexts) : (u.setLink l k).TablesSettled := by
  have hcores : u.SameCores (u.setLink l k) := .of_eq fun _ => rfl
  exact h.sameCores hcores rfl (.of_eq (State.context?_setLink contexts)) (fun _ => id) rfl rfl rfl

theorem State.TablesSettled.dataPath {s t : State} (h : s.TablesSettled) (path : s.DataPath t) : t.TablesSettled :=
  State.DataPath.keeps (fun _ _ h hmove => h.move hmove) h path

theorem State.TablesSettled.configureLink {u : State} (h : u.TablesSettled) (l : LinkNo) (enable single : Bool)
    (z : PixelSize) : (u.configureLink l enable single z).TablesSettled := by
  obtain ⟨v, path, heq, -, -⟩ := u.configureLink_path l enable single z
  rw [heq]
  exact (h.dataPath path).setLink rfl

theorem State.TablesSettled.hostRun {u t : State} {x : Source} {r : CommandRecord} (h : u.TablesSettled)
    (run : u.HostRun x r t) : t.TablesAgree := by
  cases run with
  | completes status payload found => exact h.finish r status payload found
  | create p kind passed =>
    obtain ⟨hfree, k, hk, -, hkey, -, -⟩ := State.createDenial_eq_none passed
    refine h.enterScan ?_
    simp only [State.OperationHolds, State.enterScan, kind]
    exact ⟨hfree, k, hk, hkey⟩
  | amend p kind passed =>
    obtain ⟨i, b, hnames, hd, hpending, -, -⟩ := State.amendDenial_eq_none passed
    refine h.enterScan ?_
    simp only [State.OperationHolds, State.enterScan, kind]
    exact ⟨i, b, hnames, hd, hpending⟩
  | definePlane p kind passed =>
    refine h.enterScan ?_
    simp only [State.OperationHolds, State.enterScan, kind]
    exact Nat.lt_succ_of_le (PlaneParams.denial_eq_none.mp passed).1
  | attributes i b p used => exact (h.setPlacement (b' := b.withAttributes p) used rfl).finish r _ _ _
  | retire i b abort payload used live => exact (h.drain used live .retire abort).finish r _ _ _
  | configureLink l enable single z free =>
    unfold State.completeConfigureLink
    have hdone := (h.configureLink l enable single z).finish r .ok
      (.linkConfigured l enable single z (look (u.configureLink l enable single z).links l).state) none
    simp only
    split
    · exact hdone.dataPath (State.dataPath_grantAll _)
    · exact hdone
  | timeout n payload =>
    have h' : ({ u with ackTimeout := n } : State).TablesSettled := h
    exact h'.finish r _ _ _
  | levels ls payload =>
    have h' : ({ u with levels := ls } : State).TablesSettled := h
    exact h'.finish r _ _ _
  | recordCounters i b payload used =>
    exact (h.setPlacement (b' := { b with counters := RecordCounters.zero }) used rfl).finish r _ _ _
  | linkCounters l payload =>
    have h' : (u.setLink l { look u.links l with counters := Vector.replicate 8 0 }).TablesSettled := h.setLink rfl
    exact h'.finish r _ _ _
  | portCounters payload =>
    have h' : ({ u with fsRefused := 0, fsTimeout := 0 } : State).TablesSettled := h
    exact h'.finish r _ _ _
  | sync kind => exact h.startFence (by simp only [State.OperationHolds])

theorem State.TablesSettled.expire {u : State} (h : u.TablesSettled) {i : RecordNo} {p : Placement}
    (used : u.placement? i = some p) (due : p.expires = true) : (u.expire i p).TablesAgree := by
  unfold State.expire
  split
  · exact (h.drain used (Placement.expires_iff.mp due).1 .silence true).post _
  · exact h.post _

/-- A COMMIT that starts finds the SUPERSEDED slot that its pending bit stands for (R63, R77). -/
theorem State.TablesSettled.commit_holds {s : State} {i : RecordNo} {p : Placement} (h : s.TablesSettled)
    (hs : s.Starts .commitSet (.internal i)) (used : (s.begun .commitSet (.internal i)).placement? i = some p)
    {op : FenceOperation} (hr : op.request = .commit i) (ht : op.target = p.slotsIn .superseded) :
    ({ s.begun .commitSet (.internal i) with engine := .fence op } : State).OperationHolds := by
  obtain ⟨_, _, _, _, _, hcommits, _⟩ := h
  obtain ⟨hset, hcleared⟩ := hs.commit_bit
  obtain ⟨q, hq, hsuperseded⟩ := hcommits i hset
  rw [← s.begun_placement? .commitSet (.internal i), used] at hq
  cases hq
  simp only [State.OperationHolds, hr]
  exact ⟨p, used, ht, ht ▸ hsuperseded, hcleared⟩

/-- A RELEASE that starts finds its record DRAINING and unclaimed (R64, R77). -/
theorem State.TablesSettled.release_holds {s : State} {i : RecordNo} {p : Placement} (h : s.TablesSettled)
    (hs : s.Starts .releaseSet (.internal i)) (used : (s.begun .releaseSet (.internal i)).placement? i = some p)
    {op : FenceOperation} (hr : op.request = .release i) (ht : op.target = p.occupiedSlots) :
    ({ s.begun .releaseSet (.internal i) with engine := .fence op } : State).OperationHolds := by
  obtain ⟨_, _, _, _, hreleases, _⟩ := h
  obtain ⟨hset, hcleared⟩ := hs.release_bit
  obtain ⟨q, hq, hd, hc⟩ := hreleases i hset
  rw [← s.begun_placement? .releaseSet (.internal i), used] at hq
  cases hq
  simp only [State.OperationHolds, hr]
  exact ⟨p, used, hd, hc, ht, hcleared⟩

/-- An internal operation runs on the record whose pending bit it found (R61, R63, R64). -/
theorem State.TablesSettled.internalRun {s t : State} {i : RecordNo} {x : Source} (h : s.TablesSettled)
    (hs : s.Starts x (.internal i)) (run : (s.begun x (.internal i)).InternalRun i x t) : t.TablesAgree := by
  have hbegun := h.begun x (.internal i)
  cases run with
  | dropped => exact hbegun.dropped
  | expire p used due => exact hbegun.expire used due
  | commit p used => exact hbegun.startFence (h.commit_holds hs used rfl rfl)
  | release p used => exact hbegun.startFence (h.release_holds hs used rfl rfl)

/-! ## Departures -/

theorem State.TablesSettled.departed {s : State} (h : s.TablesSettled) : s.departed.TablesSettled := by
  rw [State.departed_frame]
  exact h

/-- A departure takes a mark off the fence in flight, or ends it (R50). -/
theorem State.TablesAgree.depart {s : State} (h : s.TablesAgree) : s.depart.TablesAgree := by
  obtain ⟨hsettled, ho⟩ := State.tablesAgree_iff.mp h
  by_cases hfence : ∃ op, s.engine = .fence op
  · obtain ⟨op, he⟩ := hfence
    have hop : ({ s.departed with engine := .fence op } : State).OperationHolds := by
      rw [State.departed_frame, ← he]
      exact ho
    by_cases hwaits : awaiting op.awaited.tail = true
    · rw [State.depart_waits he hwaits]
      exact State.tablesAgree_iff.mpr ⟨hsettled.departed, hop⟩
    · rw [State.depart_ends he (Bool.eq_false_iff.mpr hwaits)]
      exact hsettled.departed.completeFence hop
  · rw [State.depart_plain fun op he => hfence ⟨op, he⟩, State.departed_frame]
    exact h

/-! ## Time (R160, R161) -/

theorem Placement.core_ageStep (p : Placement) : p.ageStep.core = p.core := by
  unfold Placement.ageStep
  split <;> rfl

theorem State.sameCores_boundary (s : State) : s.SameCores s.boundary := fun i => by
  rw [State.placement?_boundary, Option.map_map]
  exact congrArg (fun f => Option.map f (s.placement? i)) (funext Placement.core_ageStep)

theorem State.generation_boundary (s : State) (i : RecordNo) :
    (look s.boundary.records i).generation = (look s.records i).generation := by
  unfold State.boundary
  rw [look_map]
  rfl

/-- A boundary sets the Expiry bits of records in use alone. -/
theorem State.TablesAgree.boundary {s : State} (h : s.TablesAgree) : s.boundary.TablesAgree := by
  obtain ⟨⟨hactive, hkeys, hclaims, haborts, hbits⟩, ho⟩ := State.tablesAgree_iff.mp h
  have hcores := s.sameCores_boundary
  have hgenerations := s.generation_boundary
  have hexpiry := s.expirySet_boundary
  have hframe : s.boundary = { s with
    timebase := s.boundary.timebase, records := s.boundary.records, expirySet := s.boundary.expirySet } := rfl
  rw [hframe] at hcores hgenerations hexpiry ⊢
  generalize s.boundary.timebase = timebase at hcores hgenerations hexpiry ⊢
  generalize s.boundary.records = records at hcores hgenerations hexpiry ⊢
  generalize s.boundary.expirySet = expirySet at hcores hgenerations hexpiry ⊢
  refine State.tablesAgree_iff.mpr ⟨⟨hactive.sameCores hcores, hkeys.sameCores hcores rfl,
    hclaims.sameCores hcores (.of_eq fun _ _ => rfl), haborts.sameCores hcores fun _ => id,
    hbits.sameCores hcores (fun _ => id) (fun _ => id) fun i hi => ?_⟩,
    ho.keeps (State.keepsOperation_of_cores hcores rfl rfl hgenerations rfl rfl)⟩
  rw [hexpiry, Bool.or_eq_true] at hi
  refine hi.imp_right fun hreaches => ?_
  cases hp : s.placement? i with
  | none => rw [hp] at hreaches; cases hreaches
  | some p => rfl

/-! ## Transactions -/

theorem State.TablesAgree.preempt {s : State} (h : s.TablesAgree) (r : CommandRecord) : (s.preempt r).TablesAgree := by
  obtain ⟨hsettled, _⟩ := State.tablesAgree_iff.mp h
  unfold State.preempt
  split
  · split
    · exact State.TablesSettled.agree_idle hsettled rfl
    · exact h
  · exact h
  · exact h

theorem State.TablesAgree.portEffect {s u : State} (h : s.TablesAgree) (he : s.PortEffect u) : u.TablesAgree := by
  cases he with
  | answer bytes => exact h
  | push r room => exact h
  | priority r =>
    have h' : ({ s with prioritySlot := some r } : State).TablesAgree := h
    exact h'.preempt r
  | withdraw bytes => exact h
  | flush => exact h
  | pop r rest bytes filled => exact h
  | status bytes => exact h
  | link l bytes =>
    have h' : (s.setLink l { look s.links l with attention := false }).TablesAgree :=
      h.dataPath (State.DataMove.path (.link l _ rfl rfl rfl fun _ hg => .inl hg))
    exact h'
  | framestore bytes => exact h
  | controls mask gate mark => exact h
  | tableReset => exact s.cleared_tableReset.tablesAgree

/-! ## Every event -/

/-- A header that a SEEKING link hears leaves its contexts, its configuration and its FIFO (R122). -/
theorem Link.seek_keeps (k : Link) (good : Bool) : (k.seek good).contexts = k.contexts ∧ (k.seek good).single = k.single ∧
    (k.seek good).pixelSize = k.pixelSize ∧ (k.seek good).fifo = k.fifo := by
  unfold Link.seek
  split
  · split <;> exact ⟨rfl, rfl, rfl, rfl⟩
  · exact ⟨rfl, rfl, rfl, rfl⟩

theorem State.TablesAgree.event {s t : State} (h : s.TablesAgree) (he : s.Event t) : t.TablesAgree := by
  obtain ⟨hsettled, ho⟩ := State.tablesAgree_iff.mp h
  cases he with
  | nothing => exact h
  | powerOn => exact (State.cleared_fresh s.pending s.draws s.frame.afterPowerOn).tablesAgree
  | frame f short => exact h
  | transaction u effect =>
    have h' := h.portEffect effect
    exact h'
  | host x r t starts run => exact (hsettled.begun x _).hostRun run
  | internal x i t starts run => exact hsettled.internalRun starts run
  | scan op inFlight => exact h.stepScan inFlight
  | departure how answers =>
    have hcounted : (s.countDeparture how).TablesAgree := by
      cases how <;> exact h
    exact hcounted.depart.dataPath (State.dataPath_grantAll _)
  | seek l good seeking =>
    obtain ⟨hcontexts, hsingle, hsize, hfifo⟩ := (look s.links l).seek_keeps good
    exact h.dataPath (State.DataMove.path (.link l _ hcontexts hsingle hsize fun g hg => .inl (hfifo ▸ hg)))
  | headerError l locked => exact h.dataPath (s.dataPath_lockedError l)
  | segment l g locked whole => exact h.dataPath (s.dataPath_lockedGood l whole)
  | grant => exact h.dataPath s.dataPath_grantAll
  | abortIgnored a => exact h.dataPath (State.DataMove.path (.abort a))
  | abort a f claiming =>
    have herase := h.dataPath (State.DataMove.path (.abort a))
    exact (herase.dataPath (State.dataPath_truncate _ _ _)).dataPath (State.dataPath_grantAll _)
  | boundary => exact h.boundary

/-- Settles O59: by the event that the step is. -/
theorem everyStepKeepsTheTablesInAgreement : Obligations.EveryStepKeepsTheTablesInAgreement := by
  intro s t h hstep
  rcases step_cases hstep with rfl | ⟨rest, hevent⟩
  · exact h
  · have h' : ({ s with pending := rest } : State).TablesAgree := h
    exact h'.event hevent

end Sys2Proof.Machine

/-! SUPPORT. The windows through the destination lists: what the pool, the bursts and the fit of the entries read of a record
(R33, R36, R37, R143). -/

namespace Sys2Proof.Machine

/-! ## Destination lists -/

/-- What the windows read of a slot that is not EMPTY: its record's key, its source size and its destination list. -/
structure Listed where
  key : Key
  width : U16
  height : U16
  entries : List EntryNo

/-- The slot `x` of a record in use, where it is not EMPTY, whatever its state. -/
def State.listed? (s : State) (i : RecordNo) (x : SlotLetter) : Option Listed :=
  (s.placement? i).bind fun p => (p.slot x).map fun g => { key := p.key, width := g.width, height := g.height, entries := g.entries }

theorem State.listed?_eq_some {s : State} {i : RecordNo} {x : SlotLetter} {v : Listed} :
    s.listed? i x = some v ↔ ∃ p g, s.placement? i = some p ∧ p.slot x = some g ∧
      v = { key := p.key, width := g.width, height := g.height, entries := g.entries } := by
  unfold State.listed?
  rw [Option.bind_eq_some_iff]
  constructor
  · rintro ⟨p, hp, hv⟩
    obtain ⟨g, hg, rfl⟩ := Option.map_eq_some_iff.mp hv
    exact ⟨p, g, hp, hg, rfl⟩
  · rintro ⟨p, g, hp, hg, rfl⟩
    exact ⟨p, hp, by rw [hg]; rfl⟩

theorem State.listed?_of_slot {s : State} {i : RecordNo} {p : Placement} {x : SlotLetter} {g : Slot}
    (hp : s.placement? i = some p) (hg : p.slot x = some g) :
    s.listed? i x = some { key := p.key, width := g.width, height := g.height, entries := g.entries } :=
  State.listed?_eq_some.mpr ⟨p, g, hp, hg, rfl⟩

theorem State.listed?_of_empty {s : State} {i : RecordNo} {p : Placement} {x : SlotLetter} (hp : s.placement? i = some p)
    (hg : p.slot x = none) : s.listed? i x = none := by
  unfold State.listed?
  rw [hp, Option.bind_some, hg, Option.map_none]

theorem State.listed?_of_free {s : State} {i : RecordNo} (hp : s.placement? i = none) (x : SlotLetter) :
    s.listed? i x = none := by
  unfold State.listed?
  rw [hp, Option.bind_none]

/-- Records with the same fields list the same. -/
theorem State.listed?_congr {s t : State} {i : RecordNo} (h : t.placement? i = s.placement? i) (x : SlotLetter) :
    t.listed? i x = s.listed? i x := by
  unfold State.listed?
  rw [h]

/-- The list of a slot, of a record with the same key and the same slot but for its state. -/
theorem State.listed?_eq {s t : State} {i : RecordNo} {p q : Placement} {x : SlotLetter} (hp : s.placement? i = some p)
    (hq : t.placement? i = some q) (hkey : q.key = p.key)
    (hslot : (q.slot x).map (fun g => (g.width, g.height, g.entries)) = (p.slot x).map fun g => (g.width, g.height, g.entries)) :
    t.listed? i x = s.listed? i x := by
  cases hg : p.slot x with
  | none =>
    rw [hg, Option.map_none, Option.map_eq_none_iff] at hslot
    rw [State.listed?_of_empty hp hg, State.listed?_of_empty hq hslot]
  | some g =>
    rw [hg, Option.map_some] at hslot
    obtain ⟨g', hg', heq⟩ := Option.map_eq_some_iff.mp hslot
    simp only [Prod.mk.injEq] at heq
    obtain ⟨hw, hh, hes⟩ := heq
    rw [State.listed?_of_slot hp hg, State.listed?_of_slot hq hg', hkey, hw, hh, hes]

/-- Every slot lists in `t` what it lists in `s`. -/
def State.SameLists (s t : State) : Prop := ∀ i x, t.listed? i x = s.listed? i x

theorem State.SameLists.trans {s t u : State} (h : s.SameLists t) (h' : t.SameLists u) : s.SameLists u := fun i x =>
  (h' i x).trans (h i x)

theorem State.sameLists_of_placements {s t : State} (h : ∀ i, t.placement? i = s.placement? i) : s.SameLists t := fun i x =>
  State.listed?_congr (h i) x

theorem State.SameCores.sameLists {s t : State} (h : s.SameCores t) : s.SameLists t := fun i x => by
  cases hq : t.placement? i with
  | none =>
    have hp : s.placement? i = none := by
      have hi := h i
      rw [hq, Option.map_none] at hi
      exact Option.map_eq_none_iff.mp hi.symm
    rw [State.listed?_of_free hp, State.listed?_of_free hq]
  | some q =>
    obtain ⟨p, hp, hcore⟩ := h.exists hq
    exact State.listed?_eq hp hq (Placement.key_of_core hcore) (by rw [Placement.slot_of_core hcore])

/-- One record passes to fields with the same key and the same slots but for their states. -/
theorem State.Rewrites.sameLists {s t : State} {i : RecordNo} {p q : Placement} (hw : s.Rewrites t i p q) (hkey : q.key = p.key)
    (hslot : ∀ x, (q.slot x).map (fun g => (g.width, g.height, g.entries)) =
      (p.slot x).map fun g => (g.width, g.height, g.entries)) : s.SameLists t := fun j x => by
  by_cases hj : j = i
  · rw [hj]
    exact State.listed?_eq hw.before hw.after hkey (hslot x)
  · exact State.listed?_congr (hw.others j hj) x

/-- One record passes to fields with the same key and the same slots. -/
theorem State.Rewrites.sameLists_of_slots {s t : State} {i : RecordNo} {p q : Placement} (hw : s.Rewrites t i p q)
    (hkey : q.key = p.key) (hslot : ∀ x, q.slot x = p.slot x) : s.SameLists t := hw.sameLists hkey fun x => by rw [hslot x]

theorem State.sameLists_takeFlip (s : State) (i : RecordNo) : s.SameLists (s.takeFlip i) := by
  rcases s.takeFlip_cases i with heq | ⟨p, hp, -, heq⟩
  · rw [heq]; exact fun _ _ => rfl
  · have hw : s.Rewrites ({ s.setPlacement i p.flip with commitSet := put s.commitSet i true } : State) i p p.flip :=
      { State.rewrites_setPlacement hp p.flip with }
    rw [heq]
    refine hw.sameLists rfl fun x => ?_
    cases x with
    | a => simp only [Placement.slot, Placement.flip, Option.map_map]; rfl
    | b => simp only [Placement.slot, Placement.flip, Option.map_map]; rfl

/-! ## The windows through the lists -/

theorem State.poolAgrees_iff {s : State} : s.PoolAgrees ↔
    (∀ e en, look s.pool e = some en → ∃ v, s.listed? en.owner en.slot = some v ∧ e ∈ v.entries) ∧
    ∀ i x v, s.listed? i x = some v → v.entries.Nodup ∧ 1 ≤ v.entries.length ∧ v.entries.length ≤ 4 ∧
      ∀ e ∈ v.entries, ∃ en, look s.pool e = some en ∧ en.owner = i ∧ en.slot = x := by
  refine and_congr (forall₃_congr fun e en _ => ?_) ⟨fun h i x v hv => ?_, fun h i p x g hp hg => ?_⟩
  · constructor
    · rintro ⟨p, g, hp, hg, he⟩
      exact ⟨_, State.listed?_of_slot hp hg, he⟩
    · rintro ⟨v, hv, he⟩
      obtain ⟨p, g, hp, hg, rfl⟩ := State.listed?_eq_some.mp hv
      exact ⟨p, g, hp, hg, he⟩
  · obtain ⟨p, g, hp, hg, rfl⟩ := State.listed?_eq_some.mp hv
    exact h i p x g hp hg
  · exact h i x _ (State.listed?_of_slot hp hg)

theorem State.burstsInside_iff {s : State} : s.BurstsInside ↔
    ∀ b ∈ s.bursts, ∃ v e en pl, s.listed? b.record b.slot = some v ∧ e ∈ v.entries ∧ look s.pool e = some en ∧
      look s.planes en.plane = some pl ∧ b.within en pl := by
  refine forall₂_congr fun b _ => ⟨?_, ?_⟩
  · rintro ⟨p, g, e, en, pl, hp, hg, he, hen, hpl, hb⟩
    exact ⟨_, e, en, pl, State.listed?_of_slot hp hg, he, hen, hpl, hb⟩
  · rintro ⟨v, e, en, pl, hv, he, hen, hpl, hb⟩
    obtain ⟨p, g, hp, hg, rfl⟩ := State.listed?_eq_some.mp hv
    exact ⟨p, g, e, en, pl, hp, hg, he, hen, hpl, hb⟩

/-- An entry lies inside a plane of pixel size `z`, and its crop inside a source of size `w` by `h` (R36, R37). -/
def Entry.Fits (en : Entry) (pl : Plane) (z : PixelSize) (w h : U16) : Prop :=
  pl.pixelSize = z ∧ 1 ≤ en.width.toNat ∧ en.width.toNat ≤ 4096 ∧ 1 ≤ en.height.toNat ∧ en.height.toNat ≤ 4096 ∧
    en.x.toNat + en.width.toNat ≤ pl.width.toNat ∧ en.y.toNat + en.height.toNat ≤ pl.height.toNat ∧
    en.cropX.toNat + en.width.toNat ≤ w.toNat ∧ en.cropY.toNat + en.height.toNat ≤ h.toNat

theorem State.entriesFit_iff {s : State} : s.EntriesFit ↔
    ∀ e en, look s.pool e = some en → ∃ v pl, s.listed? en.owner en.slot = some v ∧ look s.planes en.plane = some pl ∧
      en.Fits pl (look s.links v.key.link).pixelSize v.width v.height := by
  refine forall₃_congr fun e en _ => ⟨?_, ?_⟩
  · rintro ⟨p, g, pl, hp, hg, hpl, hfits⟩
    exact ⟨_, pl, State.listed?_of_slot hp hg, hpl, hfits⟩
  · rintro ⟨v, pl, hv, hpl, hfits⟩
    obtain ⟨p, g, hp, hg, rfl⟩ := State.listed?_eq_some.mp hv
    exact ⟨p, g, pl, hp, hg, hpl, hfits⟩

/-- The windows, the bursts and the planes, but for the frames and the operation in flight. -/
def State.WindowsFit (s : State) : Prop := s.PoolAgrees ∧ s.NoSharedPixel ∧ s.BurstsInside ∧ s.PlanesApart ∧ s.EntriesFit

theorem State.windowsApart_iff {s : State} : s.WindowsApart ↔
    s.WindowsFit ∧ s.FramesFit ∧ s.ScanHolds ∧ s.FenceHolds ∧ s.granted = none :=
  ⟨fun ⟨h1, h2, h3, h4, h5, h6, h7, h8, h9⟩ => ⟨⟨h1, h2, h3, h4, h5⟩, h6, h7, h8, h9⟩,
    fun ⟨⟨h1, h2, h3, h4, h5⟩, h6, h7, h8, h9⟩ => ⟨h1, h2, h3, h4, h5, h6, h7, h8, h9⟩⟩

/-- Every link of a record in use has the pixel size it had. -/
def State.SameSizes (s t : State) : Prop :=
  ∀ i x v, s.listed? i x = some v → (look t.links v.key.link).pixelSize = (look s.links v.key.link).pixelSize

section
variable {s t : State} (hlists : s.SameLists t) (hpool : t.pool = s.pool)
include hlists hpool

theorem State.PoolAgrees.same (h : s.PoolAgrees) : t.PoolAgrees := by
  rw [State.poolAgrees_iff] at h ⊢
  rw [hpool]
  simp only [hlists _ _]
  exact h

theorem State.EntriesFit.same (h : s.EntriesFit) (hplanes : t.planes = s.planes) (hsizes : s.SameSizes t) :
    t.EntriesFit := by
  rw [State.entriesFit_iff] at h ⊢
  intro e en hen
  obtain ⟨v, pl, hv, hpl, hfits⟩ := h e en (hpool ▸ hen)
  exact ⟨v, pl, (hlists _ _).trans hv, by rwa [hplanes], by rwa [hsizes _ _ v hv]⟩

/-- The bursts that were queued lie inside where they did; each other is to be shown inside. -/
theorem State.BurstsInside.same (h : s.BurstsInside) (hplanes : t.planes = s.planes)
    (hbursts : ∀ b ∈ t.bursts, b ∈ s.bursts ∨ ∃ v e en pl, s.listed? b.record b.slot = some v ∧ e ∈ v.entries ∧
      look s.pool e = some en ∧ look s.planes en.plane = some pl ∧ b.within en pl) : t.BurstsInside := by
  rw [State.burstsInside_iff] at h ⊢
  intro b hb
  obtain ⟨v, e, en, pl, hv, he, hen, hpl, hwithin⟩ := (hbursts b hb).elim (h b) id
  exact ⟨v, e, en, pl, (hlists _ _).trans hv, he, by rwa [hpool], by rwa [hplanes], hwithin⟩

/-- The same lists, entries, planes and pixel sizes, with the bursts that were queued or fewer, keep the windows. -/
theorem State.WindowsFit.same (h : s.WindowsFit) (hplanes : t.planes = s.planes) (hsizes : s.SameSizes t)
    (hbursts : ∀ b ∈ t.bursts, b ∈ s.bursts) : t.WindowsFit := by
  obtain ⟨hagrees, hshared, hinside, happart, hfit⟩ := h
  refine ⟨hagrees.same hlists hpool, ?_, hinside.same hlists hpool hplanes fun b hb => .inl (hbursts b hb), ?_,
    hfit.same hlists hpool hplanes hsizes⟩
  · unfold State.NoSharedPixel
    rw [hpool]
    exact hshared
  · unfold State.PlanesApart
    rw [hplanes]
    exact happart

end

/-! ## The frames -/

/-- The ACTIVE slot has a source size. -/
def Placement.Sized (p : Placement) (w h : U16) : Prop :=
  ∃ x g, p.slot x = some g ∧ g.phase = .active ∧ g.width = w ∧ g.height = h

/-- Every claiming frame has the source size of its record's ACTIVE slot (R14). -/
def State.ClaimsFit (s : State) : Prop :=
  ∀ l c f i, s.context? l c = some f → f.claims i = true → ∃ p, s.placement? i = some p ∧ p.Sized f.width f.height

/-- Every segment that waits has the payload its receiver reckons (R121). -/
def State.FifosFit (s : State) : Prop :=
  ∀ l, ∀ g ∈ (look s.links l).fifo, g.payload.length = g.payloadLength (look s.links l).pixelSize

theorem State.framesFit_iff {s : State} : s.FramesFit ↔ s.ClaimsFit ∧ s.FifosFit := by
  refine and_congr_left' (forall₄_congr fun l c f i => forall₂_congr fun _ _ => ⟨?_, ?_⟩)
  · rintro ⟨p, x, g, hp, hrest⟩
    exact ⟨p, hp, x, g, hrest⟩
  · rintro ⟨p, hp, x, g, hrest⟩
    exact ⟨p, x, g, hp, hrest⟩

theorem Placement.Sized.slots {p q : Placement} {w h : U16} (hs : p.Sized w h) (hq : ∀ x, q.slot x = p.slot x) :
    q.Sized w h := by
  obtain ⟨x, g, hg, hrest⟩ := hs
  exact ⟨x, g, (hq x).trans hg, hrest⟩

/-- A claiming frame of `t` is one of `s` of the same size, and the ACTIVE slot of its record has the size it had. -/
theorem State.ClaimsFit.keeps {s t : State} (h : s.ClaimsFit)
    (hframes : ∀ l c f i, t.context? l c = some f → f.claims i = true →
      ∃ f', s.context? l c = some f' ∧ f'.claims i = true ∧ f'.width = f.width ∧ f'.height = f.height)
    (hslots : ∀ l c f i p, s.context? l c = some f → f.claims i = true → s.placement? i = some p →
      ∃ q, t.placement? i = some q ∧ ∀ w h, p.Sized w h → q.Sized w h) : t.ClaimsFit := fun l c f i hf hi => by
  obtain ⟨f', hf', hi', hw, hh⟩ := hframes l c f i hf hi
  obtain ⟨p, hp, hsized⟩ := h l c f' i hf' hi'
  obtain ⟨q, hq, hkeeps⟩ := hslots l c f' i p hf' hi' hp
  rw [hw, hh] at hsized
  exact ⟨q, hq, hkeeps _ _ hsized⟩

theorem State.ClaimsFit.sameCores {s t : State} (h : s.ClaimsFit) (hcores : s.SameCores t)
    (hcontext : ∀ l c, t.context? l c = s.context? l c) : t.ClaimsFit :=
  h.keeps (fun l c f i hf hi => ⟨f, (hcontext l c).symm.trans hf, hi, rfl, rfl⟩) fun _ _ _ i _ _ _ hp => by
    obtain ⟨q, hq, hcore⟩ := hcores.symm.exists hp
    exact ⟨q, hq, fun _ _ hsized => hsized.slots (Placement.slot_of_core hcore.symm)⟩

end Sys2Proof.Machine

/-! SUPPORT. What the scan and the fence in flight have found, while the tables, the pool and the planes that they read stay
(R40, R48, R49, R51). -/

namespace Sys2Proof.Machine

/-! ## The scan in flight (R48, R49) -/

/-- The pool, the planes, and the mode and pixel size of each link are as they were. -/
structure State.Steady (s t : State) : Prop where
  pool : t.pool = s.pool
  planes : t.planes = s.planes
  single : ∀ l, (look t.links l).single = (look s.links l).single
  pixelSize : ∀ l, (look t.links l).pixelSize = (look s.links l).pixelSize

theorem State.Steady.trans {s t u : State} (h : s.Steady t) (h' : t.Steady u) : s.Steady u where
  pool := h'.pool.trans h.pool
  planes := h'.planes.trans h.planes
  single l := (h'.single l).trans (h.single l)
  pixelSize l := (h'.pixelSize l).trans (h.pixelSize l)

theorem State.steady_of_links {s t : State} (hpool : t.pool = s.pool) (hplanes : t.planes = s.planes)
    (hlinks : s.OffContexts t) : s.Steady t where
  pool := hpool
  planes := hplanes
  single l := (hlinks l).single
  pixelSize l := (hlinks l).pixelSize

theorem State.steady_setLink {s : State} {l : LinkNo} {k : Link} (single : k.single = (look s.links l).single)
    (pixelSize : k.pixelSize = (look s.links l).pixelSize) : s.Steady (s.setLink l k) where
  pool := rfl
  planes := rfl
  single m := by
    rw [State.setLink_links, look_put]
    split_ifs with h
    · rw [← h, single]
    · rfl
  pixelSize m := by
    rw [State.setLink_links, look_put]
    split_ifs with h
    · rw [← h, pixelSize]
    · rfl

theorem State.Steady.slotDenial {s t : State} (h : s.Steady t) (l : LinkNo) (ds : List DestDesc) :
    t.slotDenial l ds = s.slotDenial l ds := by
  have hplane : t.plane? = s.plane? := funext fun b => by rw [State.plane?, State.plane?, h.planes]
  have hon : t.onPlane = s.onPlane := funext fun test => funext fun d => by rw [State.onPlane, State.onPlane, hplane]
  have hfree : t.poolFree = s.poolFree := by rw [State.poolFree, State.poolFree, State.freeEntries, State.freeEntries, h.pool]
  simp only [State.slotDenial, hplane, hon, hfree, h.pixelSize]

/-- The start checks of a CREATE pass, by what each of them reads (R94). -/
theorem State.createDenial_eq_none_iff {s : State} {p : CreateParams} : s.createDenial p = none ↔
    s.lowestFree.isSome = true ∧ ∃ k, Key.ofBytes? p.link p.channel = some k ∧
      ¬ ((look s.links k.link).single = true ∧ k.channel ≠ 0) ∧ look s.keyIndex k.place = none ∧
      geometryFault p.width p.height p.count p.used = none ∧ s.slotDenial k.link p.used = none := by
  refine ⟨State.createDenial_eq_none, fun ⟨hfree, k, hk, hmode, hkey, hgeometry, hslot⟩ => ?_⟩
  have hfull : ¬ s.tableFree = 0 := fun hzero => by
    rw [State.lowestFree, List.length_eq_zero_iff.mp hzero] at hfree
    cases hfree
  rw [State.createDenial_keyed hgeometry hk (by simpa using hmode), hkey]
  simp only [if_neg hfull, hslot]

/-- The start checks of an AMEND pass, by what each of them reads (R97). -/
theorem State.amendDenial_eq_none_iff {s : State} {p : AmendParams} : s.amendDenial p = none ↔
    ∃ i b, s.Names p.handle i b ∧ b.drain = none ∧ b.pendingPhase = none ∧
      geometryFault p.width p.height p.count p.used = none ∧ s.slotDenial b.key.link p.used = none := by
  refine ⟨State.amendDenial_eq_none, fun ⟨i, b, hnames, hd, hpending, hgeometry, hslot⟩ => ?_⟩
  rw [State.amendDenial_slot hnames hd hpending hgeometry, hslot]

theorem State.OverlapFound.congr {s t : State} {own : Option RecordNo} {ds : List DestDesc} {position : ScanPosition}
    (h : s.OverlapFound own ds position) (hpool : t.pool = s.pool) : t.OverlapFound own ds position := by
  cases position with
  | mutualComparison => trivial
  | visit e => simp only [State.OverlapFound, hpool]; exact h
  | planeRanges => exact h

theorem State.PlaneFound.congr {s t : State} {p : PlaneParams} {position : ScanPosition} (h : s.PlaneFound p position)
    (hpool : t.pool = s.pool) : t.PlaneFound p position := by
  cases position with
  | mutualComparison => exact h
  | visit e => simp only [State.PlaneFound, hpool]; exact h
  | planeRanges => simp only [State.PlaneFound, hpool]; exact h

theorem State.scanHolds_of_not_scan {s : State} (h : ∀ op, s.engine ≠ .scan op) : s.ScanHolds := by
  cases he : s.engine with
  | scan op => exact absurd he (h op)
  | idle => simp only [State.ScanHolds, he]
  | fence op => simp only [State.ScanHolds, he]

/-- The start checks of the scan in flight still pass, and what it has found still holds. -/
theorem State.ScanHolds.keeps {s t : State} (h : s.ScanHolds) (hk : s.KeepsOperation t) (hs : s.Steady t) : t.ScanHolds := by
  unfold State.ScanHolds at h ⊢
  rw [hk.engine]
  cases he : s.engine with
  | idle => trivial
  | fence op => trivial
  | scan op =>
    rw [he] at h
    cases hc : op.request.command with
    | create p =>
      simp only [hc] at h ⊢
      obtain ⟨hdenial, hfound⟩ := h
      refine ⟨?_, hfound.congr hs.pool⟩
      rw [State.createDenial_eq_none_iff] at hdenial ⊢
      rw [State.lowestFree, State.freeRecords_congr hk.free_iff, hk.keys]
      simp only [hs.single, hs.slotDenial]
      exact hdenial
    | amend p =>
      simp only [hc] at h ⊢
      obtain ⟨hdenial, hfound⟩ := h
      refine ⟨?_, hfound.congr hs.pool⟩
      rw [State.amendDenial_eq_none_iff] at hdenial ⊢
      obtain ⟨i, b, ⟨hi, hb, hgeneration⟩, hd, hpending, hgeometry, hslot⟩ := hdenial
      obtain ⟨q, hq, hkeeps⟩ := hk.used i b hb
      refine ⟨i, q, ⟨hi, hq, (hk.generations i).trans hgeneration⟩, hkeeps.drain.trans hd, hkeeps.pending hpending,
        hgeometry, ?_⟩
      rw [hs.slotDenial, hkeeps.key]
      exact hslot
    | definePlane p =>
      simp only [hc] at h ⊢
      obtain ⟨hdenial, hfound⟩ := h
      exact ⟨hdenial, hfound.congr hs.pool⟩
    | setAttributes | retire | lookup | query | configureLink | configureFramestore | setLevels | readCounters | sync =>
      simp only [hc] at h

/-! ## The fence in flight (R51) -/

/-- Every queued burst of some slots of a record is marked. -/
def State.Marked (s : State) (i : RecordNo) (target : List SlotLetter) (awaited : List Bool) : Prop :=
  ∀ (n : Nat) (b : Burst), s.bursts[n]? = some b → b.record = i → b.slot ∈ target → awaited[n]? = some true

/-- The record whose slots a fence is about; none for a SYNC's. -/
def FenceRequest.record? : FenceRequest → Option RecordNo
  | .sync _ => none
  | .commit i => some i
  | .release i => some i

theorem State.fenceHolds_of_not_fence {s : State} (h : ∀ op, s.engine ≠ .fence op) : s.FenceHolds := by
  cases he : s.engine with
  | fence op => exact absurd he (h op)
  | idle => simp only [State.FenceHolds, he]
  | scan op => simp only [State.FenceHolds, he]

theorem State.fenceHolds_fence {s : State} {op : FenceOperation} (he : s.engine = .fence op) :
    s.FenceHolds ↔ ∀ i, op.request.record? = some i → s.Marked i op.target op.awaited := by
  cases hr : op.request with
  | sync r => simp [State.FenceHolds, he, hr, FenceRequest.record?]
  | commit i => simp [State.FenceHolds, he, hr, FenceRequest.record?, State.Marked]
  | release i => simp [State.FenceHolds, he, hr, FenceRequest.record?, State.Marked]

/-- Bursts that join, of other slots, leave the fenced ones marked. -/
theorem State.Marked.append {s t : State} {i : RecordNo} {target : List SlotLetter} {awaited : List Bool} {bs : List Burst}
    (h : s.Marked i target awaited) (hbursts : t.bursts = s.bursts ++ bs)
    (hother : ∀ b ∈ bs, b.record = i → b.slot ∉ target) : t.Marked i target awaited := fun n b hb hi hslot => by
  rw [hbursts] at hb
  by_cases hn : n < s.bursts.length
  · rw [List.getElem?_append_left hn] at hb
    exact h n b hb hi hslot
  · rw [List.getElem?_append_right (Nat.le_of_not_lt hn)] at hb
    exact absurd hslot (hother b (List.mem_of_getElem? hb) hi)

/-- The head that leaves takes its mark off. -/
theorem State.Marked.tail {s t : State} {i : RecordNo} {target : List SlotLetter} {awaited : List Bool}
    (h : s.Marked i target awaited) (hbursts : t.bursts = s.bursts.tail) : t.Marked i target awaited.tail :=
  fun n b hb hi hslot => by
  rw [hbursts, List.getElem?_tail] at hb
  rw [List.getElem?_tail]
  exact h (n + 1) b hb hi hslot

/-- With no mark left no burst of the fenced slots is queued. -/
theorem State.Marked.none_left {s : State} {i : RecordNo} {target : List SlotLetter} {awaited : List Bool}
    (h : s.Marked i target awaited) (hend : awaiting awaited = false) : ∀ b ∈ s.bursts, b.record = i → b.slot ∉ target :=
  fun b hb hi hslot => by
  obtain ⟨n, hn⟩ := List.mem_iff_getElem?.mp hb
  have hmark := List.mem_of_getElem? (h n b hn hi hslot)
  have hno := List.any_eq_false.mp hend true hmark
  exact hno rfl

/-- A fence starts with the bursts of its slots marked (R51). -/
theorem State.marked_tagged (s : State) (i : RecordNo) (target : List SlotLetter) :
    s.Marked i target (s.tagged i target) := fun n b hb hi hslot => by
  unfold State.tagged
  rw [List.getElem?_map, hb, Option.map_some, Option.some_inj, Bool.and_eq_true, decide_eq_true_eq, List.contains_iff_mem]
  exact ⟨hi, hslot⟩

/-- The slots that a fence is about are none that a frame's line could write: SUPERSEDED ones, or those of an unclaimed
record (R51). -/
theorem State.OperationHolds.fence_target {s : State} {op : FenceOperation} (h : s.OperationHolds) (he : s.engine = .fence op)
    {i : RecordNo} (hi : op.request.record? = some i) :
    ∃ p, s.placement? i = some p ∧ (p.claim = none ∨ ∀ x ∈ op.target, p.phase? x = some .superseded) := by
  simp only [State.OperationHolds, he] at h
  cases hr : op.request with
  | sync r => rw [hr] at hi; cases hi
  | commit j =>
    rw [hr] at hi
    cases hi
    simp only [hr] at h
    obtain ⟨p, hp, htarget, -, -⟩ := h
    exact ⟨p, hp, .inr fun x hx => Placement.mem_slotsIn.mp (htarget ▸ hx)⟩
  | release j =>
    rw [hr] at hi
    cases hi
    simp only [hr] at h
    obtain ⟨p, hp, -, hc, -, -⟩ := h
    exact ⟨p, hp, .inl hc⟩

end Sys2Proof.Machine

/-! SUPPORT. The bursts of a line lie inside the entries that take it (R131, R140 to R143). -/

namespace Sys2Proof.Machine

theorem Placement.find?_eq_some {p : Placement} {ph : SlotPhase} {x : SlotLetter} {g : Slot} (h : p.find? ph = some (x, g)) :
    p.slot x = some g ∧ g.phase = ph := by
  unfold Placement.find? at h
  split at h
  · next a b ha hb =>
    split_ifs at h with h1 h2
    · cases h; exact ⟨ha, h1⟩
    · cases h; exact ⟨hb, h2⟩
  · next a ha hb =>
    split_ifs at h with h1
    cases h
    exact ⟨ha, h1⟩
  · next b ha hb =>
    split_ifs at h with h1
    cases h
    exact ⟨hb, h1⟩
  · cases h

theorem Placement.phase?_of_slot {p : Placement} {x : SlotLetter} {g : Slot} (h : p.slot x = some g) :
    p.phase? x = some g.phase := by
  rw [Placement.phase?, h, Option.map_some]

/-- One slot is ACTIVE (R10). -/
theorem Placement.active_unique {p : Placement} (h : (p.slotsIn .active).length = 1) {x y : SlotLetter}
    (hx : p.phase? x = some .active) (hy : p.phase? y = some .active) : x = y := by
  obtain ⟨z, hz⟩ := List.length_eq_one_iff.mp h
  have hmem {w : SlotLetter} (hw : p.phase? w = some .active) : w = z := by
    have hin := Placement.mem_slotsIn.mpr hw
    rw [hz] at hin
    exact List.mem_singleton.mp hin
  rw [hmem hx, hmem hy]

/-- A destination that takes a line is an entry of the ACTIVE slot, on a defined plane (R131, R141). -/
theorem State.mem_takers {s : State} {i : RecordNo} {n : Nat} {x : SlotLetter} {en : Entry} {pl : Plane}
    (h : (x, en, pl) ∈ s.takers i n) :
    ∃ p g e, s.placement? i = some p ∧ p.slot x = some g ∧ g.phase = .active ∧ e ∈ g.entries ∧ look s.pool e = some en ∧
      en.takesLine n = true ∧ look s.planes en.plane = some pl := by
  unfold State.takers at h
  split at h
  · cases h
  · next y g hbind =>
    obtain ⟨p, hp, hfind⟩ := Option.bind_eq_some_iff.mp hbind
    obtain ⟨hslot, hphase⟩ := Placement.find?_eq_some hfind
    obtain ⟨e, he, htaker⟩ := List.mem_filterMap.mp h
    obtain ⟨en', hen, hif⟩ := Option.bind_eq_some_iff.mp htaker
    split_ifs at hif with htakes
    obtain ⟨pl', hpl, heq⟩ := Option.map_eq_some_iff.mp hif
    cases heq
    exact ⟨p, g, e, hp, hslot, hphase, he, hen, htakes, hpl⟩

/-- A line makes bursts where a frame PLACES and it passes the checks, one for each taker (R141). -/
theorem State.mem_lineBursts {s : State} {l : LinkNo} {g : Segment} {b : Burst} (h : b ∈ s.lineBursts l g) :
    ∃ f i x en pl, s.context? l ((look s.links l).contextOf g) = some f ∧ f.lineFault g = none ∧ f.phase = .placing i ∧
      (x, en, pl) ∈ s.takers i g.fieldA.toNat ∧ b = burstOf i l g.fieldA.toNat g.payload (x, en, pl) := by
  unfold State.lineBursts at h
  split at h
  · cases h
  · next f hf =>
    split at h
    · next i hfault hph =>
      obtain ⟨⟨x, en, pl⟩, hmem, heq⟩ := List.mem_map.mp h
      exact ⟨f, i, x, en, pl, hf, hfault, hph, hmem, heq.symm⟩
    · cases h

theorem Frame.width_of_lineFault {f : Frame} {g : Segment} (h : f.lineFault g = none) : g.fieldB = f.width := by
  by_contra hwidth
  unfold Frame.lineFault at h
  rw [if_pos hwidth] at h
  split_ifs at h

theorem PixelSize.bytes_pos (z : PixelSize) : 1 ≤ z.bytes := by cases z <;> decide

/-- The burst of a line through an entry that takes it writes a row of the entry's rectangle (R140 to R142). -/
theorem burstOf_within {en : Entry} {pl : Plane} {z : PixelSize} {w h : U16} {n : Nat} {payload : List Byte}
    (hfits : en.Fits pl z w h) (hsound : pl.Sound) (htakes : en.takesLine n = true)
    (hlength : payload.length = w.toNat * z.bytes) (i : RecordNo) (l : LinkNo) (x : SlotLetter) :
    (burstOf i l n payload (x, en, pl)).within en pl := by
  obtain ⟨rfl, hwidth, -, hheight, -, hx, hy, hcropX, -⟩ := hfits
  obtain ⟨-, -, -, -, -, -, -, -, hpitch, hlast⟩ := hsound
  obtain ⟨hlow, hhigh⟩ := of_decide_eq_true htakes
  have hsize := pl.pixelSize.bytes_pos
  refine ⟨rfl, ?_, en.y.toNat + n - en.cropY.toNat, by omega, by omega, ?_⟩
  · have hcrop := Nat.mul_le_mul_right pl.pixelSize.bytes hcropX
    rw [Nat.add_mul] at hcrop
    change ((payload.drop _).take _).length = _
    rw [List.length_take, List.length_drop, hlength]
    exact min_eq_left (Nat.le_sub_of_add_le (by rwa [Nat.add_comm]))
  · obtain ⟨row, hrow⟩ : ∃ row, row = en.y.toNat + n - en.cropY.toNat := ⟨_, rfl⟩
    have hrows := Nat.mul_le_mul_right pl.pitch.toNat (show row + 1 ≤ pl.height.toNat by omega)
    have hcolumns := Nat.mul_le_mul_right pl.pixelSize.bytes (show en.x.toNat + 1 ≤ pl.width.toNat by omega)
    rw [Nat.add_mul, Nat.one_mul] at hrows hcolumns
    unfold Plane.last at hlast
    rw [Nat.mul_comm pl.pitch.toNat] at hlast
    change (BitVec.ofNat 32 _).toNat = _
    rw [← hrow, BitVec.toNat_ofNat, Nat.mod_eq_of_lt]
    omega

/-- Each burst of a line that waits lies inside an entry of its slot, the ACTIVE one of a record whose claiming frame it comes
from. -/
theorem State.lineBursts_inside {s : State} (hsettled : s.TablesSettled) (hfit : s.WindowsFit) (hframes : s.FramesFit)
    {l : LinkNo} {g : Segment} (hwaits : g ∈ (look s.links l).fifo) (hline : g.kind = .line) {b : Burst}
    (hb : b ∈ s.lineBursts l g) :
    ∃ v e en pl, s.listed? b.record b.slot = some v ∧ e ∈ v.entries ∧ look s.pool e = some en ∧
      look s.planes en.plane = some pl ∧ b.within en pl := by
  obtain ⟨hactive, _, hclaims, _, _⟩ := hsettled
  obtain ⟨hpool, -, -, hplanes, hentries⟩ := hfit
  obtain ⟨hsizes, hfifos⟩ := State.framesFit_iff.mp hframes
  obtain ⟨f, i, x, en, pl, hf, hfault, hph, htaker, rfl⟩ := State.mem_lineBursts hb
  obtain ⟨p, v, e, hp, hv, hphase, he, hen, htakes, hpl⟩ := State.mem_takers htaker
  have hfi : f.claims i = true := Frame.claims_iff_phase.mpr (.inl hph)
  obtain ⟨q, hq, y, w, hw, hwphase, hwidth, -⟩ := hsizes _ _ f i hf hfi
  obtain ⟨q', hq', hclaim⟩ := hclaims.2 _ _ f i hf hfi
  rw [hp] at hq hq'
  cases hq
  cases hq'
  obtain ⟨hkey, -⟩ := hclaims.1 i p _ hp hclaim
  have hxy : x = y := Placement.active_unique (hactive i p hp) (by rw [Placement.phase?_of_slot hv, hphase])
    (by rw [Placement.phase?_of_slot hw, hwphase])
  subst hxy
  rw [hv] at hw
  cases hw
  have hlisted := State.listed?_of_slot hp hv
  refine ⟨_, e, en, pl, hlisted, he, hen, hpl, ?_⟩
  obtain ⟨-, -, -, howns⟩ := (State.poolAgrees_iff.mp hpool).2 i x _ hlisted
  obtain ⟨en', hen', howner, hslot⟩ := howns e he
  rw [hen] at hen'
  cases hen'
  obtain ⟨v', pl', hv', hpl', hfits⟩ := State.entriesFit_iff.mp hentries e en hen
  rw [howner, hslot, hlisted] at hv'
  rw [hpl] at hpl'
  cases hv'
  cases hpl'
  refine burstOf_within hfits (hplanes.1 _ pl hpl) htakes ?_ i l x
  rw [hfifos l g hwaits, Segment.payloadLength_eq, if_pos hline, Frame.width_of_lineFault hfault, ← hkey, hwidth]

end Sys2Proof.Machine

/-! SUPPORT. The data path keeps the windows, the frames, and what the operation in flight has found (R14, R39, R51, R121,
R143). -/

namespace Sys2Proof.Machine

/-! ## What a move leaves -/

/-- A move writes no entry, no plane and no configuration. -/
theorem State.DataMove.steady {s t : State} (hmove : s.DataMove t) : s.Steady t := by
  cases hmove with
  | link l k contexts single pixelSize fifo => exact State.steady_setLink single pixelSize
  | endFrame l c f n opened =>
    have hoff := s.offClaims_endFrame l c f n
    exact State.steady_of_links (by rw [hoff]) (by rw [hoff]) (s.offContexts_endFrame l c f n)
  | report i p p' used core => exact State.steady_of_links rfl rfl (State.offContexts_of_links rfl)
  | unclaimed l c f idle none => exact State.steady_of_links rfl rfl (s.offContexts_setContext l c _)
  | advance l c f f' opened phase width height => exact State.steady_of_links rfl rfl (s.offContexts_setContext l c _)
  | claim l c i p f keyed used idle claims sized =>
    have hoff := s.offQueue_openAndClaim i { link := l, channel := c }
    have hlinks := s.links_openAndClaim i { link := l, channel := c }
    generalize s.openAndClaim i { link := l, channel := c } = u at hoff hlinks
    have hfirst : s.Steady u := State.steady_of_links (by rw [hoff]) (by rw [hoff]) (State.offContexts_of_links hlinks)
    exact hfirst.trans (State.steady_of_links rfl rfl (u.offContexts_setContext l c _))
  | bursts l g waits line =>
    obtain ⟨n, timer, heq⟩ := s.joinBursts_frame (s.lineBursts l g)
    rw [heq]
    exact State.steady_of_links rfl rfl (State.offContexts_of_links rfl)
  | turn l => exact State.steady_of_links rfl rfl (State.offContexts_of_links rfl)
  | abort a => exact State.steady_of_links rfl rfl (State.offContexts_of_links rfl)

theorem State.sameLists_endFrame {s : State} (h : s.ClaimsAgree) {l : LinkNo} {c : Channel} {f : Frame}
    (hf : s.context? l c = some f) (n : RecordCounter) : s.SameLists (s.endFrame l c f n) := by
  cases hr : f.phase.record? with
  | none => rw [State.endFrame_unclaimed hr]; exact State.sameLists_of_placements fun _ => rfl
  | some i =>
    have hfi : f.claims i = true := Frame.claims_iff.mpr hr
    obtain ⟨p, hp, -⟩ := h.2 l c f i hf hfi
    exact (State.rewrites_endFrame hfi hp l c n).sameLists_of_slots rfl fun x => by cases x <;> rfl

/-- The claim of a record by a context of its key, with the flip before it, leaves the lists (R12, R14). -/
theorem State.sameLists_openAndClaim {s : State} {i : RecordNo} {p : Placement} (hp : s.placement? i = some p) (c : Key) :
    s.SameLists (s.openAndClaim i c) := by
  rw [State.openAndClaim_eq hp]
  have htaken : (s.takeFlip i).placement? i = some p.taken := by rw [State.placement?_takeFlip hp, if_pos rfl]
  refine (s.sameLists_takeFlip i).trans ?_
  exact (State.rewrites_setPlacement htaken { p.taken with claim := some c }).sameLists_of_slots rfl fun x => by cases x <;> rfl

theorem State.DataMove.sameLists {s t : State} (h : s.ClaimsAgree) (hmove : s.DataMove t) : s.SameLists t := by
  cases hmove with
  | link l k contexts single pixelSize fifo => exact State.sameLists_of_placements fun _ => rfl
  | endFrame l c f n opened => exact State.sameLists_endFrame h opened n
  | report i p p' used core => exact (State.sameCores_setPlacement used core).sameLists
  | unclaimed l c f idle none => exact State.sameLists_of_placements fun _ => rfl
  | advance l c f f' opened phase width height => exact State.sameLists_of_placements fun _ => rfl
  | claim l c i p f keyed used idle claims sized => exact State.sameLists_openAndClaim used _
  | bursts l g waits line =>
    obtain ⟨n, timer, heq⟩ := s.joinBursts_frame (s.lineBursts l g)
    rw [heq]
    exact State.sameLists_of_placements fun _ => rfl
  | turn l => exact State.sameLists_of_placements fun _ => rfl
  | abort a => exact State.sameLists_of_placements fun _ => rfl

/-- The bursts that a move queues are those of a line that waits. -/
theorem State.DataMove.bursts_append {s t : State} (hmove : s.DataMove t) : ∃ bs, t.bursts = s.bursts ++ bs ∧
    ∀ b ∈ bs, ∃ l g, g ∈ (look s.links l).fifo ∧ g.kind = .line ∧ b ∈ s.lineBursts l g := by
  have hnone (u : State) (h : u.bursts = s.bursts) : ∃ bs, u.bursts = s.bursts ++ bs ∧
      ∀ b ∈ bs, ∃ l g, g ∈ (look s.links l).fifo ∧ g.kind = .line ∧ b ∈ s.lineBursts l g :=
    ⟨[], by rw [h, List.append_nil], by simp⟩
  cases hmove with
  | link l k contexts single pixelSize fifo => exact hnone _ rfl
  | endFrame l c f n opened =>
    have hoff := s.offClaims_endFrame l c f n
    exact hnone _ (by rw [hoff])
  | report i p p' used core => exact hnone _ rfl
  | unclaimed l c f idle none => exact hnone _ rfl
  | advance l c f f' opened phase width height => exact hnone _ rfl
  | claim l c i p f keyed used idle claims sized =>
    have hoff := s.offQueue_openAndClaim i { link := l, channel := c }
    generalize s.openAndClaim i { link := l, channel := c } = u at hoff
    exact hnone _ (by rw [State.setContext_bursts, hoff])
  | bursts l g waits line => exact ⟨_, s.bursts_joinBursts _, fun b hb => ⟨l, g, waits, line, hb⟩⟩
  | turn l => exact hnone _ rfl
  | abort a => exact hnone _ rfl

/-! ## The frames (R14, R121) -/

/-- A frame of the size that the next OPEN is compared with has that of the ACTIVE slot after the flip (R12, R14). -/
theorem Placement.taken_sized {p : Placement} {w h : U16} (hnext : p.nextGeometry = some (w, h)) : p.taken.Sized w h := by
  unfold Placement.nextGeometry at hnext
  cases hs : p.find? .staged with
  | some xg =>
    obtain ⟨x, g⟩ := xg
    rw [hs] at hnext
    cases hnext
    obtain ⟨hslot, hphase⟩ := Placement.find?_eq_some hs
    have hstaged : ¬ p.slotsIn .staged = [] := Placement.find?_isSome_iff.mp (by rw [hs]; rfl)
    rw [Placement.taken, if_neg hstaged]
    refine ⟨x, { g with phase := g.phase.flipped }, ?_, by rw [hphase]; rfl, rfl, rfl⟩
    cases x with
    | a => exact congrArg (Option.map _) hslot
    | b => exact congrArg (Option.map _) hslot
  | none =>
    simp only [hs] at hnext
    obtain ⟨⟨x, g⟩, hactive, heq⟩ := Option.map_eq_some_iff.mp hnext
    cases heq
    obtain ⟨hslot, hphase⟩ := Placement.find?_eq_some hactive
    rw [Placement.taken, if_pos ((p.find?_eq_none .staged).mp hs)]
    exact ⟨x, g, hslot, hphase, rfl, rfl⟩

/-- The frame that ends claims no more, and its record keeps its slots. -/
theorem State.ClaimsFit.endFrame {s : State} (h : s.ClaimsFit) (l : LinkNo) (c : Channel) (f : Frame) (n : RecordCounter) :
    (s.endFrame l c f n).ClaimsFit := by
  refine h.keeps (fun m d g i hg hi => ?_) fun m d g i p hg hi hp => ?_
  · rw [State.context?_endFrame] at hg
    split_ifs at hg with hmd
    exact ⟨g, hg, hi, rfl, rfl⟩
  · by_cases hfi : f.claims i = true
    · exact ⟨_, State.placement?_endFrame_claimed hfi hp l c n, fun _ _ hsized => hsized.slots fun x => by cases x <;> rfl⟩
    · exact ⟨p, (State.placement?_endFrame_other hfi l c n).trans hp, fun _ _ => id⟩

/-- A frame that opens claims the record of its key, whose slots are those that the flip leaves; no other frame claims it. -/
theorem State.ClaimsFit.claim {s : State} (h : s.ClaimsFit) (hsettled : s.TablesSettled) {l : LinkNo} {c : Channel} {i : RecordNo}
    {p : Placement} {f : Frame} (keyed : look s.keyIndex (Key.place { link := l, channel := c }) = some i)
    (used : s.placement? i = some p) (claims : f.claims i = true) (sized : p.nextGeometry = some (f.width, f.height)) :
    ((s.openAndClaim i { link := l, channel := c }).setContext l c (some f)).ClaimsFit := by
  obtain ⟨_, hkeys, hclaims, _, _⟩ := hsettled
  obtain ⟨q, hq, -, hkey⟩ := (hkeys _ i).mp keyed
  rw [used] at hq
  cases hq
  rw [State.openAndClaim_eq used]
  intro m d g j hg hj
  have hplaced (k : RecordNo) : (((s.takeFlip i).setPlacement i
      { p.taken with claim := some { link := l, channel := c } }).setContext l c (some f)).placement? k =
      if i = k then some { p.taken with claim := some { link := l, channel := c } } else s.placement? k := by
    rw [State.placement?_setContext, State.placement?_setPlacement, State.placement?_takeFlip used]
    split_ifs <;> rfl
  rw [State.context?_setContext] at hg
  split_ifs at hg with hmd
  · cases hg
    have hji := (Frame.claims_iff.mp claims).symm.trans (Frame.claims_iff.mp hj)
    cases hji
    exact ⟨_, by rw [hplaced, if_pos rfl], (Placement.taken_sized sized).slots fun x => by cases x <;> rfl⟩
  · rw [State.context?_setPlacement, State.context?_congr (s.links_takeFlip i)] at hg
    obtain ⟨r, hr, hsized⟩ := h m d g j hg hj
    obtain ⟨r', hr', hclaim⟩ := hclaims.2 m d g j hg hj
    have hij : ¬ i = j := fun hij => by
      subst hij
      rw [used] at hr'
      cases hr'
      have hmd' := (hclaims.1 i p _ used hclaim).1.trans hkey
      cases hmd'
      exact hmd ⟨rfl, rfl⟩
    exact ⟨r, by rw [hplaced, if_neg hij, hr], hsized⟩

theorem State.ClaimsFit.move {s t : State} (h : s.ClaimsFit) (hsettled : s.TablesSettled) (hmove : s.DataMove t) :
    t.ClaimsFit := by
  have hclaims : s.ClaimsAgree := hsettled.claimsAgree
  cases hmove with
  | link l k contexts single pixelSize fifo =>
    have hcores : s.SameCores (s.setLink l k) := .of_eq fun _ => rfl
    exact h.sameCores hcores (State.context?_setLink contexts)
  | endFrame l c f n opened => exact h.endFrame l c f n
  | report i p p' used core => exact h.sameCores (State.sameCores_setPlacement used core) fun _ _ => rfl
  | unclaimed l c f idle none =>
    refine h.keeps (fun m d g i hg hi => ?_) fun m d g i p hg hi hp => ⟨p, hp, fun _ _ => id⟩
    rw [State.context?_setContext] at hg
    split_ifs at hg with hmd
    · cases hg
      rw [Frame.claims_iff, none] at hi
      cases hi
    · exact ⟨g, hg, hi, rfl, rfl⟩
  | advance l c f f' opened phase width height =>
    refine h.keeps (fun m d g i hg hi => ?_) fun m d g i p hg hi hp => ⟨p, hp, fun _ _ => id⟩
    rw [State.context?_setContext] at hg
    split_ifs at hg with hmd
    · cases hg
      obtain ⟨rfl, rfl⟩ := hmd
      exact ⟨f, opened, by rwa [Frame.claims_iff, ← phase, ← Frame.claims_iff], width.symm, height.symm⟩
    · exact ⟨g, hg, hi, rfl, rfl⟩
  | claim l c i p f keyed used idle claims sized => exact h.claim hsettled keyed used claims sized
  | bursts l g waits line =>
    obtain ⟨n, timer, heq⟩ := s.joinBursts_frame (s.lineBursts l g)
    rw [heq]
    exact h
  | turn l => exact h
  | abort a => exact h

/-- A FIFO whose links keep their pixel sizes, and whose segments waited before. -/
theorem State.FifosFit.keeps {s t : State} (h : s.FifosFit) (hsizes : ∀ l, (look t.links l).pixelSize = (look s.links l).pixelSize)
    (hfifos : ∀ l, ∀ g ∈ (look t.links l).fifo, g ∈ (look s.links l).fifo ∨
      g.payload.length = g.payloadLength (look s.links l).pixelSize) : t.FifosFit := fun l g hg => by
  rw [hsizes]
  exact (hfifos l g hg).elim (h l g) id

theorem State.FifosFit.move {s t : State} (h : s.FifosFit) (hmove : s.DataMove t) : t.FifosFit := by
  refine h.keeps hmove.steady.pixelSize fun m g hg => ?_
  have hoff (u : State) (ho : s.OffContexts u) (hg : g ∈ (look u.links m).fifo) : g ∈ (look s.links m).fifo := by
    rwa [(ho m).fifo] at hg
  cases hmove with
  | link l k contexts single pixelSize fifo =>
    rw [State.setLink_links, look_put] at hg
    split_ifs at hg with hm
    · subst hm
      exact fifo g hg
    · exact .inl hg
  | endFrame l c f n opened => exact .inl (hoff _ (s.offContexts_endFrame l c f n) hg)
  | report i p p' used core => exact .inl hg
  | unclaimed l c f idle none => exact .inl (hoff _ (s.offContexts_setContext l c _) hg)
  | advance l c f f' opened phase width height => exact .inl (hoff _ (s.offContexts_setContext l c _) hg)
  | claim l c i p f keyed used idle claims sized =>
    have hlinks := s.links_openAndClaim i { link := l, channel := c }
    generalize s.openAndClaim i { link := l, channel := c } = u at hg hlinks
    exact .inl (hoff _ ((State.offContexts_of_links hlinks).trans (u.offContexts_setContext l c _)) hg)
  | bursts l g waits line => exact .inl (hoff _ (State.offContexts_of_links (s.links_joinBursts _)) hg)
  | turn l => exact .inl hg
  | abort a => exact .inl hg

/-! ## The fence -/

/-- The bursts of lines are of ACTIVE slots of claimed records, and so of none that a fence is about (R51). -/
theorem State.lineBursts_not_fenced {s : State} (h : s.TablesAgree) {op : FenceOperation} (he : s.engine = .fence op)
    {i : RecordNo} (hi : op.request.record? = some i) {l : LinkNo} {g : Segment} {b : Burst} (hb : b ∈ s.lineBursts l g)
    (hbi : b.record = i) : b.slot ∉ op.target := fun htarget => by
  obtain ⟨⟨hactive, _, hclaims, _, _⟩, ho⟩ := State.tablesAgree_iff.mp h
  obtain ⟨p, hp, hcase⟩ := ho.fence_target he hi
  obtain ⟨f, j, x, en, pl, hf, -, hph, htaker, rfl⟩ := State.mem_lineBursts hb
  obtain ⟨q, v, e, hq, hv, hphase, -⟩ := State.mem_takers htaker
  have hji : j = i := hbi
  subst hji
  rw [hp] at hq
  cases hq
  obtain ⟨r, hr, hclaim⟩ := hclaims.2 _ _ f j hf (Frame.claims_iff_phase.mpr (.inl hph))
  rw [hp] at hr
  cases hr
  rcases hcase with hunclaimed | hsuperseded
  · rw [hunclaimed] at hclaim
    cases hclaim
  · have hx := hsuperseded x htarget
    rw [Placement.phase?_of_slot hv, hphase] at hx
    cases hx

/-! ## The data path -/

/-- The tables agree but for what the operation in flight found, and the windows and the frames fit. -/
def State.Settled (s : State) : Prop := s.TablesSettled ∧ s.WindowsFit ∧ s.FramesFit

theorem State.Settled.tables {s : State} (h : s.Settled) : s.TablesSettled := h.1

theorem State.Settled.move {s t : State} (h : s.Settled) (hmove : s.DataMove t) : t.Settled := by
  obtain ⟨hsettled, ⟨hpool, hshared, hinside, hplanes, hentries⟩, hframes⟩ := h
  obtain ⟨hclaimsFit, hfifosFit⟩ := State.framesFit_iff.mp hframes
  have hsteady := hmove.steady
  have hlists := hmove.sameLists hsettled.claimsAgree
  obtain ⟨bs, hbursts, hlines⟩ := hmove.bursts_append
  refine ⟨hsettled.move hmove, ⟨hpool.same hlists hsteady.pool, ?_, ?_, ?_, hentries.same hlists hsteady.pool hsteady.planes
    fun _ _ v _ => hsteady.pixelSize v.key.link⟩, State.framesFit_iff.mpr ⟨hclaimsFit.move hsettled hmove,
    hfifosFit.move hmove⟩⟩
  · unfold State.NoSharedPixel
    rw [hsteady.pool]
    exact hshared
  · refine hinside.same hlists hsteady.pool hsteady.planes fun b hb => ?_
    rw [hbursts] at hb
    refine (List.mem_append.mp hb).imp_right fun hb => ?_
    obtain ⟨l, g, hwaits, hline, hbl⟩ := hlines b hb
    exact State.lineBursts_inside hsettled ⟨hpool, hshared, hinside, hplanes, hentries⟩ hframes hwaits hline hbl
  · unfold State.PlanesApart
    rw [hsteady.planes]
    exact hplanes

theorem State.Settled.dataPath {s t : State} (h : s.Settled) (path : s.DataPath t) : t.Settled :=
  State.DataPath.keeps (fun _ _ h hmove => h.move hmove) h path

/-- The tables agree, the windows and frames fit, and what the operation in flight has found holds. -/
def State.DataSound (s : State) : Prop := s.Settled ∧ s.OperationHolds ∧ s.ScanHolds ∧ s.FenceHolds

theorem State.DataSound.tablesAgree {s : State} (h : s.DataSound) : s.TablesAgree := by
  obtain ⟨⟨hsettled, -⟩, ho, -⟩ := h
  exact State.tablesAgree_iff.mpr ⟨hsettled, ho⟩

/-- The marks of the fence in flight are right after a move: the bursts that join are of no fenced slot. -/
theorem State.FenceHolds.move {s t : State} (h : s.FenceHolds) (htables : s.TablesAgree) (hengine : t.engine = s.engine)
    (hmove : s.DataMove t) : t.FenceHolds := by
  obtain ⟨bs, hbursts, hlines⟩ := hmove.bursts_append
  by_cases hfence : ∃ op, s.engine = .fence op
  · obtain ⟨op, he⟩ := hfence
    rw [State.fenceHolds_fence (hengine.trans he)]
    intro i hi
    refine ((State.fenceHolds_fence he).mp h i hi).append hbursts fun b hb hbi => ?_
    obtain ⟨l, g, -, -, hbl⟩ := hlines b hb
    exact State.lineBursts_not_fenced htables he hi hbl hbi
  · exact State.fenceHolds_of_not_fence fun op he => hfence ⟨op, hengine.symm.trans he⟩

theorem State.DataSound.move {s t : State} (h : s.DataSound) (hmove : s.DataMove t) : t.DataSound := by
  have htables := h.tablesAgree
  obtain ⟨hsettled, ho, hscan, hfence⟩ := h
  have hkeeps := hsettled.tables.keepsOperation_move hmove
  exact ⟨hsettled.move hmove, ho.keeps hkeeps, hscan.keeps hkeeps hmove.steady, hfence.move htables hkeeps.engine hmove⟩

theorem State.DataSound.dataPath {s t : State} (h : s.DataSound) (path : s.DataPath t) : t.DataSound :=
  State.DataPath.keeps (fun _ _ h hmove => h.move hmove) h path

end Sys2Proof.Machine

/-! SUPPORT. Entries given back and taken: the windows where slots are emptied, and where a slot is filled (R33 to R39). -/

namespace Sys2Proof.Machine

/-! ## Slots are emptied (R35) -/

/-- From `s` to `t` some slots of record `i` are emptied, and their entries with them. -/
structure State.Vacates (s t : State) (i : RecordNo) (target : List SlotLetter) : Prop where
  lists : ∀ j x v, t.listed? j x = some v ↔ s.listed? j x = some v ∧ ¬ (j = i ∧ x ∈ target)
  pool : ∀ e en, look t.pool e = some en ↔ look s.pool e = some en ∧ ¬ (en.owner = i ∧ en.slot ∈ target)
  planes : t.planes = s.planes
  links : t.links = s.links
  bursts : t.bursts = s.bursts

/-- The entry on a slot's list is the one that the slot owns. -/
theorem State.PoolAgrees.owner_of_listed {s : State} (h : s.PoolAgrees) {i : RecordNo} {x : SlotLetter} {v : Listed} {e : EntryNo}
    {en : Entry} (hv : s.listed? i x = some v) (he : e ∈ v.entries) (hen : look s.pool e = some en) :
    en.owner = i ∧ en.slot = x := by
  obtain ⟨-, -, -, howns⟩ := (State.poolAgrees_iff.mp h).2 i x v hv
  obtain ⟨en', hen', howner, hslot⟩ := howns e he
  rw [hen] at hen'
  cases hen'
  exact ⟨howner, hslot⟩

/-- Where no queued burst is of the slots that are emptied, the windows stay. -/
theorem State.WindowsFit.vacates {s t : State} (h : s.WindowsFit) {i : RecordNo} {target : List SlotLetter}
    (hv : s.Vacates t i target) (hbursts : ∀ b ∈ s.bursts, b.record = i → b.slot ∉ target) : t.WindowsFit := by
  obtain ⟨hagrees, hshared, hinside, hplanes, hfit⟩ := h
  obtain ⟨hoccupied, hlisted⟩ := State.poolAgrees_iff.mp hagrees
  refine ⟨State.poolAgrees_iff.mpr ⟨fun e en hen => ?_, fun j x v hlist => ?_⟩, fun e e' en en' hne hen hen' hshares => ?_,
    State.burstsInside_iff.mpr fun b hb => ?_, ?_, State.entriesFit_iff.mpr fun e en hen => ?_⟩
  · obtain ⟨hs, hother⟩ := (hv.pool e en).mp hen
    obtain ⟨v, hlist, he⟩ := hoccupied e en hs
    exact ⟨v, (hv.lists _ _ v).mpr ⟨hlist, hother⟩, he⟩
  · obtain ⟨hs, hother⟩ := (hv.lists j x v).mp hlist
    obtain ⟨hnodup, hpos, hle, howns⟩ := hlisted j x v hs
    refine ⟨hnodup, hpos, hle, fun e he => ?_⟩
    obtain ⟨en, hen, howner, hslot⟩ := howns e he
    exact ⟨en, (hv.pool e en).mpr ⟨hen, by rwa [howner, hslot]⟩, howner, hslot⟩
  · exact hshared e e' en en' hne ((hv.pool e en).mp hen).1 ((hv.pool e' en').mp hen').1 hshares
  · rw [hv.bursts] at hb
    obtain ⟨v, e, en, pl, hlist, he, hen, hpl, hwithin⟩ := State.burstsInside_iff.mp hinside b hb
    obtain ⟨howner, hslot⟩ := hagrees.owner_of_listed hlist he hen
    have hother : ¬ (b.record = i ∧ b.slot ∈ target) := fun ⟨hi, hx⟩ => hbursts b hb hi hx
    exact ⟨v, e, en, pl, (hv.lists _ _ v).mpr ⟨hlist, hother⟩, he, (hv.pool e en).mpr ⟨hen, by rwa [howner, hslot]⟩,
      by rwa [hv.planes], hwithin⟩
  · unfold State.PlanesApart
    rw [hv.planes]
    exact hplanes
  · obtain ⟨hs, hother⟩ := (hv.pool e en).mp hen
    obtain ⟨v, pl, hlist, hpl, hfits⟩ := State.entriesFit_iff.mp hfit e en hs
    exact ⟨v, pl, (hv.lists _ _ v).mpr ⟨hlist, hother⟩, by rwa [hv.planes], by rwa [hv.links]⟩

theorem Placement.mem_entriesOf {p : Placement} {xs : List SlotLetter} {e : EntryNo} :
    e ∈ p.entriesOf xs ↔ ∃ x ∈ xs, ∃ g, p.slot x = some g ∧ e ∈ g.entries := by
  rw [Placement.entriesOf, List.mem_flatMap]
  refine exists_congr fun x => and_congr_right fun _ => ?_
  cases p.slot x <;> simp

/-- The entries on the lists of some slots of a record are those that the slots own (R33). -/
theorem State.PoolAgrees.mem_entriesOf {s : State} (h : s.PoolAgrees) {i : RecordNo} {p : Placement} {e : EntryNo} {en : Entry}
    (hp : s.placement? i = some p) (hen : look s.pool e = some en) (xs : List SlotLetter) :
    e ∈ p.entriesOf xs ↔ en.owner = i ∧ en.slot ∈ xs := by
  rw [Placement.mem_entriesOf]
  constructor
  · rintro ⟨x, hx, g, hg, he⟩
    obtain ⟨howner, hslot⟩ := h.owner_of_listed (State.listed?_of_slot hp hg) he hen
    exact ⟨howner, hslot ▸ hx⟩
  · rintro ⟨rfl, hx⟩
    obtain ⟨q, g, hq, hg, he⟩ := h.1 e en hen
    rw [hp] at hq
    cases hq
    exact ⟨en.slot, hx, g, hg, he⟩

theorem State.PoolAgrees.look_emptyPool {s : State} (h : s.PoolAgrees) {i : RecordNo} {p : Placement}
    (hp : s.placement? i = some p) (xs : List SlotLetter) (e : EntryNo) (en : Entry) :
    look (emptyPool s.pool (p.entriesOf xs)) e = some en ↔ look s.pool e = some en ∧ ¬ (en.owner = i ∧ en.slot ∈ xs) := by
  rw [Machine.look_emptyPool]
  constructor
  · intro hsome
    split_ifs at hsome with he
    exact ⟨hsome, (h.mem_entriesOf hp hsome xs).not.mp he⟩
  · rintro ⟨hen, hother⟩
    rw [if_neg ((h.mem_entriesOf hp hen xs).not.mpr hother), hen]

theorem State.vacates_emptied {s : State} (h : s.PoolAgrees) {i : RecordNo} {p : Placement} {x : SlotLetter} {g : Slot}
    (hp : s.placement? i = some p) (hg : p.slot x = some g) : s.Vacates (s.emptied i p x g) i [x] where
  lists j y v := by
    rw [List.mem_singleton]
    have hafter : (s.emptied i p x g).placement? i = some (p.withSlot x none) := State.placement?_setPlacement_same s i _
    by_cases hj : j = i
    · subst hj
      by_cases hy : y = x
      · subst hy
        rw [State.listed?_of_empty hafter (p.slot_withSlot_same y none)]
        simp
      · have hother : y = x.other := by cases x <;> cases y <;> simp_all [SlotLetter.other]
        have hlist : (s.emptied j p x g).listed? j y = s.listed? j y :=
          State.listed?_eq hp hafter (p.withSlot_key x none) (by rw [hother, p.slot_withSlot_other])
        rw [hlist]
        simp [hy]
    · have hlist : (s.emptied i p x g).listed? j y = s.listed? j y :=
        State.listed?_congr (by
          change (s.setPlacement i _).placement? j = _
          rw [State.placement?_setPlacement, if_neg (Ne.symm hj)]) y
      rw [hlist]
      simp [hj]
  pool e en := by
    have hentries : g.entries = p.entriesOf [x] := by simp [Placement.entriesOf, hg]
    change look (emptyPool s.pool g.entries) e = some en ↔ _
    rw [hentries]
    exact h.look_emptyPool hp [x] e en
  planes := rfl
  links := rfl
  bursts := rfl

theorem State.vacates_freed {s : State} (h : s.PoolAgrees) {i : RecordNo} {p : Placement} (hp : s.placement? i = some p) :
    s.Vacates (s.freed i p p.occupiedSlots) i p.occupiedSlots where
  lists j y v := by
    obtain ⟨-, hafter, hothers⟩ := State.frees_freed hp p.occupiedSlots
    by_cases hj : j = i
    · subst hj
      rw [State.listed?_of_free hafter]
      refine ⟨fun hno => (by cases hno), fun ⟨hlist, hno⟩ => absurd ⟨rfl, ?_⟩ hno⟩
      obtain ⟨q, g, hq, hg, -⟩ := State.listed?_eq_some.mp hlist
      rw [hp] at hq
      cases hq
      exact Placement.mem_occupiedSlots.mpr (by rw [hg]; exact Option.some_ne_none g)
    · rw [State.listed?_congr (hothers j hj) y]
      simp [hj]
  pool e en := h.look_emptyPool hp p.occupiedSlots e en
  planes := rfl
  links := rfl
  bursts := rfl

/-! ## Descriptions that the checks admit (R36 to R38) -/

/-- A slot with source size `w` by `h` on a link, with the descriptions `ds`, passes the checks. -/
structure State.Admits (s : State) (l : LinkNo) (w h : U16) (ds : List DestDesc) : Prop where
  positive : 1 ≤ ds.length
  atMostFour : ds.length ≤ 4
  room : ds.length ≤ s.poolFree
  fits : ∀ d ∈ ds, ∃ pl, s.plane? d.plane = some pl ∧ ∀ i x, (d.entry i x).Fits pl (look s.links l).pixelSize w h

theorem State.admits_of_checks {s : State} {l : LinkNo} {w h : U16} {n : Byte} {dests : Vector DestDesc 4}
    (hgeometry : geometryFault w h n (dests.toList.take n.toNat) = none)
    (hslot : s.slotDenial l (dests.toList.take n.toNat) = none) : s.Admits l w h (dests.toList.take n.toNat) := by
  obtain ⟨⟨-, -, hpos, hfour⟩, hgood⟩ := (geometryFault_spec w h n _).1.mp hgeometry
  obtain ⟨hundefined, hmismatch, houtside, hroom⟩ := (s.slotDenial_spec l _).1.mp hslot
  rw [firstFailing_eq_none] at hundefined hmismatch houtside
  have hlength : (dests.toList.take n.toNat).length = n.toNat := by
    rw [List.length_take, Vector.length_toList]
    exact min_eq_left hfour
  refine ⟨by rwa [hlength], by rwa [hlength], hroom, fun d hd => ?_⟩
  obtain ⟨⟨hw1, hw2⟩, ⟨hh1, hh2⟩, -, -, hcropX, hcropY⟩ := hgood d hd
  obtain ⟨pl, hpl⟩ := Option.isSome_iff_exists.mp (Option.isNone_eq_false_iff.mp (hundefined d hd))
  have hsize := State.onPlane_eq_false.mp (hmismatch d hd) pl hpl
  have hin := DestDesc.outside_eq_false.mp (State.onPlane_eq_false.mp (houtside d hd) pl hpl)
  refine ⟨pl, hpl, fun i x => ⟨?_, hw1, hw2, hh1, hh2, hin.1, hin.2, hcropX, hcropY⟩⟩
  simpa using hsize

/-- The entry of a description on a defined plane lies on that plane. -/
theorem State.look_planes_entry {s : State} {d : DestDesc} {pl : Plane} (h : s.plane? d.plane = some pl) (i : RecordNo)
    (x : SlotLetter) : look s.planes (d.entry i x).plane = some pl ∧ (d.entry i x).rect = d.rect := by
  obtain ⟨q, hq, hpl⟩ := Option.bind_eq_some_iff.mp h
  have hval : q.val = d.plane.toNat := inRange?_eq_some.mp hq
  have hmod : d.plane.toNat % 4 = d.plane.toNat := Nat.mod_eq_of_lt (hval ▸ q.isLt)
  have hplane : (d.entry i x).plane = q := Fin.ext (hmod.trans hval.symm)
  refine ⟨by rw [hplane, hpl], ?_⟩
  simp only [Entry.rect, DestDesc.rect, hplane, hval]
  rfl

/-! ## A slot is filled (R33, R34) -/

/-- From `s` to `t` the EMPTY slot `x` of record `i` is filled, with entries allocated to it. -/
structure State.Fills (s t : State) (i : RecordNo) (x : SlotLetter) (v : Listed) (ds : List DestDesc) : Prop where
  empty : s.listed? i x = none
  lists : ∀ j y, t.listed? j y = if j = i ∧ y = x then some v else s.listed? j y
  entries : v.entries = s.allocated ds
  pool : t.pool = (s.allocate i x ds).pool
  planes : t.planes = s.planes
  links : t.links = s.links
  bursts : t.bursts = s.bursts

/-- After an allocation an entry holds what it held, or the description it took (R34). -/
theorem State.look_allocate_iff {s : State} {i : RecordNo} {x : SlotLetter} {ds : List DestDesc} (hroom : ds.length ≤ s.poolFree)
    (e : EntryNo) (en : Entry) : look (s.allocate i x ds).pool e = some en ↔
      look s.pool e = some en ∨ ∃ (n : Nat) (d : DestDesc), (s.allocated ds)[n]? = some e ∧ ds[n]? = some d ∧ en = d.entry i x := by
  by_cases he : e ∈ s.allocated ds
  · obtain ⟨n, hn⟩ := List.mem_iff_getElem?.mp he
    have hlt : n < ds.length := by
      rw [← State.length_allocated hroom]
      exact (List.getElem?_eq_some_iff.mp hn).1
    have hd := List.getElem?_eq_getElem hlt
    rw [State.look_allocate hn hd, State.free_of_mem_allocated he]
    constructor
    · intro heq
      exact .inr ⟨n, _, hn, hd, (Option.some.inj heq).symm⟩
    · rintro (hno | ⟨m, d, hm, hd', rfl⟩)
      · cases hno
      · rw [← State.look_allocate hn hd, State.look_allocate hm hd']
  · rw [State.look_allocate_of_not_mem he]
    exact (or_iff_left fun ⟨n, d, hn, _⟩ => he (List.mem_of_getElem? hn)).symm

theorem Rect.shares_comm (a b : Rect) : a.shares b = b.shares a := by
  unfold Rect.shares
  rw [decide_eq_decide]
  constructor
  · rintro ⟨h1, h2, h3, h4, h5⟩
    exact ⟨h1.symm, h3, h2, h5, h4⟩
  · rintro ⟨h1, h2, h3, h4, h5⟩
    exact ⟨h1.symm, h3, h2, h5, h4⟩

/-- A symmetric relation that holds pairwise holds of any two places. -/
theorem pairwise_getElem? {ds : List DestDesc} (h : ds.Pairwise fun d d' => d.rect.shares d'.rect = false) {m n : Nat}
    {d d' : DestDesc} (hm : ds[m]? = some d) (hn : ds[n]? = some d') (hmn : m ≠ n) : d.rect.shares d'.rect = false := by
  obtain ⟨hlm, rfl⟩ := List.getElem?_eq_some_iff.mp hm
  obtain ⟨hln, rfl⟩ := List.getElem?_eq_some_iff.mp hn
  have hpair := List.pairwise_iff_getElem.mp h
  rcases Nat.lt_or_gt_of_ne hmn with hlt | hgt
  · exact hpair m n hlm hln hlt
  · rw [Rect.shares_comm]
    exact hpair n m hln hlm hgt

section
variable {s t : State} {i : RecordNo} {x : SlotLetter} {v : Listed} {ds : List DestDesc} (hf : s.Fills t i x v ds)
include hf

theorem State.Fills.listed_of {j : RecordNo} {y : SlotLetter} {w : Listed} (h : s.listed? j y = some w) :
    t.listed? j y = some w := by
  rw [hf.lists, if_neg fun ⟨hj, hy⟩ => by rw [hj, hy, hf.empty] at h; cases h]
  exact h

theorem State.Fills.listed_new : t.listed? i x = some v := by rw [hf.lists, if_pos ⟨rfl, rfl⟩]

variable (hadmits : s.Admits v.key.link v.width v.height ds)
include hadmits

theorem State.Fills.look_pool (e : EntryNo) (en : Entry) : look t.pool e = some en ↔
    look s.pool e = some en ∨ ∃ (n : Nat) (d : DestDesc), v.entries[n]? = some e ∧ ds[n]? = some d ∧ en = d.entry i x := by
  rw [hf.pool, hf.entries]
  exact State.look_allocate_iff hadmits.room e en

theorem State.PoolAgrees.fills (h : s.PoolAgrees) : t.PoolAgrees := by
  obtain ⟨hoccupied, hlisted⟩ := State.poolAgrees_iff.mp h
  have hlength : v.entries.length = ds.length := by rw [hf.entries, State.length_allocated hadmits.room]
  refine State.poolAgrees_iff.mpr ⟨fun e en hen => ?_, fun j y w hw => ?_⟩
  · rcases (hf.look_pool hadmits e en).mp hen with hen | ⟨n, d, hn, -, rfl⟩
    · obtain ⟨w, hw, he⟩ := hoccupied e en hen
      exact ⟨w, hf.listed_of hw, he⟩
    · exact ⟨v, hf.listed_new, List.mem_of_getElem? hn⟩
  · rw [hf.lists] at hw
    split_ifs at hw with hjy
    · obtain ⟨rfl, rfl⟩ := hjy
      cases hw
      refine ⟨?_, by rw [hlength]; exact hadmits.positive, by rw [hlength]; exact hadmits.atMostFour, fun e he => ?_⟩
      · rw [hf.entries]
        exact (s.freeEntries_pairwise.sublist (List.take_sublist _ _)).imp fun hlt => ne_of_lt hlt
      · obtain ⟨n, hn⟩ := List.mem_iff_getElem?.mp he
        have hlt : n < ds.length := by
          rw [← hlength]
          exact (List.getElem?_eq_some_iff.mp hn).1
        exact ⟨_, (hf.look_pool hadmits e _).mpr (.inr ⟨n, _, hn, List.getElem?_eq_getElem hlt, rfl⟩), rfl, rfl⟩
    · obtain ⟨hnodup, hpos, hle, howns⟩ := hlisted j y w hw
      refine ⟨hnodup, hpos, hle, fun e he => ?_⟩
      obtain ⟨en, hen, hrest⟩ := howns e he
      exact ⟨en, (hf.look_pool hadmits e en).mpr (.inl hen), hrest⟩

/-- The new entries share no pixel with each other, and none with an entry of another record. -/
theorem State.NoSharedPixel.fills (h : s.NoSharedPixel) (hagrees : s.PoolAgrees)
    (hmutual : ds.Pairwise fun d d' => d.rect.shares d'.rect = false)
    (hclear : ∀ e en, look s.pool e = some en → en.owner ≠ i → ∀ d ∈ ds, d.rect.shares en.rect = false) :
    t.NoSharedPixel := by
  have hnew {n : Nat} {d : DestDesc} (hd : ds[n]? = some d) : (d.entry i x).rect = d.rect := by
    obtain ⟨pl, hpl, -⟩ := hadmits.fits d (List.mem_of_getElem? hd)
    exact (State.look_planes_entry hpl i x).2
  have hmeets {n : Nat} {d : DestDesc} {e : EntryNo} {en : Entry} (hd : ds[n]? = some d) (hen : look s.pool e = some en)
      (hshares : d.rect.shares en.rect = true) : en.owner = i ∧ en.slot ≠ x := by
    have howner : en.owner = i := by
      by_contra hne
      rw [hclear e en hen hne d (List.mem_of_getElem? hd)] at hshares
      cases hshares
    refine ⟨howner, fun hslot => ?_⟩
    obtain ⟨w, hw, -⟩ := (State.poolAgrees_iff.mp hagrees).1 e en hen
    rw [howner, hslot, hf.empty] at hw
    cases hw
  intro e e' en en' hne hen hen' hshares
  rcases (hf.look_pool hadmits e en).mp hen with hold | ⟨n, d, hn, hd, rfl⟩
  · rcases (hf.look_pool hadmits e' en').mp hen' with hold' | ⟨n', d', -, hd', rfl⟩
    · exact h e e' en en' hne hold hold' hshares
    · rw [Rect.shares_comm, hnew hd'] at hshares
      exact hmeets hd' hold hshares
  · rcases (hf.look_pool hadmits e' en').mp hen' with hold' | ⟨n', d', hn', hd', rfl⟩
    · rw [hnew hd] at hshares
      obtain ⟨howner, hslot⟩ := hmeets hd hold' hshares
      exact ⟨howner.symm, Ne.symm hslot⟩
    · have hnn : n ≠ n' := fun heq => hne (by
        rw [heq, hn'] at hn
        exact (Option.some.inj hn).symm)
      rw [hnew hd, hnew hd', pairwise_getElem? hmutual hd hd' hnn] at hshares
      cases hshares

theorem State.WindowsFit.fills (h : s.WindowsFit) (hmutual : ds.Pairwise fun d d' => d.rect.shares d'.rect = false)
    (hclear : ∀ e en, look s.pool e = some en → en.owner ≠ i → ∀ d ∈ ds, d.rect.shares en.rect = false) :
    t.WindowsFit := by
  obtain ⟨hagrees, hshared, hinside, hplanes, hfit⟩ := h
  refine ⟨hagrees.fills hf hadmits, hshared.fills hf hadmits hagrees hmutual hclear, State.burstsInside_iff.mpr fun b hb => ?_,
    ?_, State.entriesFit_iff.mpr fun e en hen => ?_⟩
  · rw [hf.bursts] at hb
    obtain ⟨w, e, en, pl, hw, he, hen, hpl, hwithin⟩ := State.burstsInside_iff.mp hinside b hb
    exact ⟨w, e, en, pl, hf.listed_of hw, he, (hf.look_pool hadmits e en).mpr (.inl hen), by rwa [hf.planes], hwithin⟩
  · unfold State.PlanesApart
    rw [hf.planes]
    exact hplanes
  · rw [hf.planes, hf.links]
    rcases (hf.look_pool hadmits e en).mp hen with hold | ⟨n, d, -, hd, rfl⟩
    · obtain ⟨w, pl, hw, hpl, hfits⟩ := State.entriesFit_iff.mp hfit e en hold
      exact ⟨w, pl, hf.listed_of hw, hpl, hfits⟩
    · obtain ⟨pl, hpl, hfits⟩ := hadmits.fits d (List.mem_of_getElem? hd)
      exact ⟨v, pl, hf.listed_new, (State.look_planes_entry hpl i x).1, hfits i x⟩

end

end Sys2Proof.Machine

/-! SUPPORT. What the steps of a scan find, and the completions that rest on it (R29, R39, R40, R49). -/

namespace Sys2Proof.Machine

/-! ## The overlap scan (R39, R40) -/

/-- No two descriptions share a pixel, and none shares one with an entry that is not the amended record's own. -/
def State.OverlapFree (s : State) (own : Option RecordNo) (ds : List DestDesc) : Prop :=
  (ds.Pairwise fun d d' => d.rect.shares d'.rect = false) ∧
    ∀ (f : EntryNo) (en : Entry), look s.pool f = some en → own ≠ some en.owner → ∀ d ∈ ds, d.rect.shares en.rect = false

/-- What a verdict of an overlap scan leaves found: at the next position, or in the end. -/
def State.OverlapLeaves (s : State) (own : Option RecordNo) (ds : List DestDesc) (v : ScanVerdict) : Prop :=
  (∀ q, v = .goOn q → s.OverlapFound own ds q) ∧ (v = .clear → s.OverlapFree own ds)

theorem State.overlapLeaves_conflict (s : State) (own : Option RecordNo) (ds : List DestDesc) (status : Status)
    (payload : Payload) : s.OverlapLeaves own ds (.conflict status payload) :=
  ⟨fun _ hq => (by cases hq), fun hclear => (by cases hclear)⟩

/-- With the entries below an index compared, the scan goes on at the next OCCUPIED one, or is over. -/
theorem State.overlapLeaves_next {s : State} {own : Option RecordNo} {ds : List DestDesc} {n : Nat}
    (hmutual : ds.Pairwise fun d d' => d.rect.shares d'.rect = false)
    (hbelow : ∀ (f : EntryNo) (en : Entry), f.val < n → look s.pool f = some en → own ≠ some en.owner →
      ∀ d ∈ ds, d.rect.shares en.rect = false) : s.OverlapLeaves own ds (s.overlapNext n) := by
  rcases s.overlapNext_spec n with ⟨hfree, hnext⟩ | ⟨e, -, -, hlow, hnext⟩
  · rw [hnext]
    refine ⟨fun q hq => (by cases hq), fun _ => ⟨hmutual, fun f en hen => hbelow f en ?_ hen⟩⟩
    by_contra hf
    rw [hfree f (Nat.le_of_not_lt hf)] at hen
    cases hen
  · rw [hnext]
    refine ⟨fun q hq => ?_, fun hclear => (by cases hclear)⟩
    cases hq
    refine ⟨hmutual, fun f en hfe hen => hbelow f en ?_ hen⟩
    by_contra hf
    rw [hlow f (Nat.le_of_not_lt hf) hfe] at hen
    cases hen

theorem State.overlapVerdict_leaves {s : State} {own : Option RecordNo} {ds : List DestDesc} {position : ScanPosition}
    (h : s.OverlapFound own ds position) (named : RecordNo) :
    s.OverlapLeaves own ds (s.overlapVerdict own named ds position) := by
  cases position with
  | mutualComparison =>
    by_cases hpair : ∃ a b, (a, b) ∈ conflictsFrom 1 ds
    · obtain ⟨a, b, -, hverdict⟩ := State.overlapVerdict_mutual_conflict (s := s) (own := own) (named := named) hpair
      rw [hverdict]
      exact s.overlapLeaves_conflict own ds _ _
    · have hnone : ∀ a b, (a, b) ∉ conflictsFrom 1 ds := fun a b hab => hpair ⟨a, b, hab⟩
      rw [State.overlapVerdict_mutual_clear hnone]
      refine State.overlapLeaves_next (List.pairwise_iff_getElem.mpr fun m n hm hn hmn => ?_) fun f en hf => absurd hf (Nat.not_lt_zero _)
      rw [← Bool.not_eq_true]
      intro hshares
      refine hnone (m + 1) (n + 1) ((mem_conflictsFrom ds 1 _ _).mpr ⟨ds[m], ds[n], Nat.le_add_left 1 m,
        Nat.add_lt_add_right hmn 1, ?_, ?_, hshares⟩)
      · rw [Nat.add_sub_cancel, List.getElem?_eq_getElem hm]
      · rw [Nat.add_sub_cancel, List.getElem?_eq_getElem hn]
  | visit e =>
    obtain ⟨hmutual, hbelow⟩ := h
    cases he : look s.pool e with
    | none =>
      simp only [State.overlapVerdict, he]
      refine State.overlapLeaves_next hmutual fun f en hf hen => ?_
      rcases Nat.lt_or_eq_of_le (Nat.le_of_lt_succ hf) with hlt | heq
      · exact hbelow f en hlt hen
      · rw [Fin.ext heq, he] at hen
        cases hen
    | some en =>
      by_cases hmeets : own ≠ some en.owner ∧ ∃ d ∈ ds, d.rect.shares en.rect = true
      · rw [State.overlapVerdict_visit_conflict he hmeets]
        exact s.overlapLeaves_conflict own ds _ _
      · have hclear : own ≠ some en.owner → ∀ d ∈ ds, d.rect.shares en.rect = false := fun hown d hd =>
          Bool.eq_false_iff.mpr fun hshares => hmeets ⟨hown, d, hd, hshares⟩
        rw [State.overlapVerdict_visit_clear he (or_iff_not_imp_left.mpr hclear)]
        refine State.overlapLeaves_next hmutual fun f en' hf hen' => ?_
        rcases Nat.lt_or_eq_of_le (Nat.le_of_lt_succ hf) with hlt | heq
        · exact hbelow f en' hlt hen'
        · rw [Fin.ext heq, he] at hen'
          cases hen'
          exact hclear
  | planeRanges => exact absurd h id

/-! ## The plane scan (R28, R29) -/

/-- With the entries below an index on other planes, the scan goes on at the next OCCUPIED one, or compares ranges. -/
theorem State.planeFound_next {s : State} {p : PlaneParams} {n : Nat}
    (hbelow : ∀ (f : EntryNo) (en : Entry), f.val < n → look s.pool f = some en → en.plane.val ≠ p.plane.toNat) :
    s.PlaneFound p (s.planeNext n) := by
  unfold State.planeNext
  cases hnext : s.nextOccupied n with
  | none =>
    have hfree := (s.nextOccupied_eq_none n).mp hnext
    refine fun f en hen => hbelow f en ?_ hen
    by_contra hf
    rw [hfree f (Nat.le_of_not_lt hf)] at hen
    cases hen
  | some e =>
    obtain ⟨-, -, hlow⟩ := (s.nextOccupied_eq_some n e).mp hnext
    refine fun f en hfe hen => hbelow f en ?_ hen
    by_contra hf
    rw [hlow f (Nat.le_of_not_lt hf) hfe] at hen
    cases hen

/-- What a verdict of a plane scan leaves found. -/
theorem State.planeVerdict_leaves {s : State} {p : PlaneParams} {position : ScanPosition} (h : s.PlaneFound p position) :
    (∀ q, s.planeVerdict p position = .goOn q → s.PlaneFound p q) ∧
      (s.planeVerdict p position = .clear →
        (∀ (f : EntryNo) (en : Entry), look s.pool f = some en → en.plane.val ≠ p.plane.toNat) ∧ s.clashingPlane p = none) := by
  cases position with
  | mutualComparison => exact absurd h id
  | planeRanges =>
    cases hclash : s.clashingPlane p with
    | none =>
      rw [State.planeVerdict_ranges_clear hclash]
      exact ⟨fun q hq => (by cases hq), fun _ => ⟨h, rfl⟩⟩
    | some q =>
      rw [State.planeVerdict_ranges_conflict hclash]
      exact ⟨fun q hq => (by cases hq), fun hclear => (by cases hclear)⟩
  | visit e =>
    have hgoesOn (hown : ∀ en, look s.pool e = some en → en.plane.val ≠ p.plane.toNat) :
        s.PlaneFound p (s.planeNext (e.val + 1)) := State.planeFound_next fun f en hf hen => by
      rcases Nat.lt_or_eq_of_le (Nat.le_of_lt_succ hf) with hlt | heq
      · exact h f en hlt hen
      · exact hown en (Fin.ext heq ▸ hen)
    cases he : look s.pool e with
    | none =>
      simp only [State.planeVerdict, he]
      refine ⟨fun q hq => ?_, fun hclear => (by cases hclear)⟩
      cases hq
      exact hgoesOn fun en hen => by rw [he] at hen; cases hen
    | some en =>
      by_cases hon : en.plane.val = p.plane.toNat
      · rw [State.planeVerdict_visit_conflict he hon]
        exact ⟨fun q hq => (by cases hq), fun hclear => (by cases hclear)⟩
      · rw [State.planeVerdict_visit_clear he hon]
        refine ⟨fun q hq => ?_, fun hclear => (by cases hclear)⟩
        cases hq
        refine hgoesOn fun en' hen' => ?_
        rw [he] at hen'
        cases hen'
        exact hon

/-- A definition that passes its checks asks for a descriptor that R28 accepts. -/
theorem PlaneParams.sound_descriptor {p : PlaneParams} (h : p.denial = none) {d : Plane} (hd : p.descriptor? = some d) :
    d.Sound := by
  obtain ⟨-, hgood⟩ := PlaneParams.denial_eq_none.mp h
  have hwidth : p.width ≠ 0 := fun hzero => by
    rw [PlaneParams.descriptor?_undefine hzero] at hd
    cases hd
  obtain ⟨hw, hh1, hh2, hbase, hp1, hp2, hp3, hsize, hrow, hlast⟩ :=
    PlaneParams.badDefinition_eq_false.mp (hgood.resolve_left hwidth)
  cases hz : PixelSize.ofByte? p.pixelSize with
  | none => rw [PlaneParams.descriptor?, if_neg hwidth, hz] at hd; cases hd
  | some z =>
    rw [PlaneParams.descriptor?_define hwidth hz] at hd
    cases hd
    have hbytes := (PixelSize.ofByte?_eq_some.mp hz).2
    have hpos : 1 ≤ p.width.toNat := Nat.one_le_iff_ne_zero.mpr fun hzero => hwidth (BitVec.eq_of_toNat_eq hzero)
    exact ⟨hpos, hw, hh1, hh2, hbase, hp1, hp2, hp3, by rw [← hbytes] at hrow; exact hrow, hlast⟩

/-- A plane with no entry on it takes a descriptor that clashes with no other, or none (R29, R30). -/
theorem State.WindowsFit.definePlane {s : State} (h : s.WindowsFit) {p : PlaneParams} {q : PlaneNo} (hq : q.val = p.plane.toNat)
    (hdenial : p.denial = none)
    (hoff : ∀ (f : EntryNo) (en : Entry), look s.pool f = some en → en.plane.val ≠ p.plane.toNat)
    (hclash : s.clashingPlane p = none) : ({ s with planes := put s.planes q p.descriptor? } : State).WindowsFit := by
  obtain ⟨hagrees, hshared, hinside, ⟨hsound, happart⟩, hfit⟩ := h
  have hkept {e : EntryNo} {en : Entry} (hen : look s.pool e = some en) :
      look (put s.planes q p.descriptor?) en.plane = look s.planes en.plane :=
    look_put_ne _ _ fun heq => hoff e en hen (heq ▸ hq)
  have hnoClash {q' : PlaneNo} {d d' : Plane} (hd : p.descriptor? = some d) (hq' : q' ≠ q) (hd' : look s.planes q' = some d') :
      d.last < d'.base.toNat ∨ d'.last < d.base.toNat := by
    have hno := (State.clashingPlane_eq_none hd).mp hclash q'
    by_contra hboth
    rw [not_or, Nat.not_lt, Nat.not_lt] at hboth
    exact hno ⟨fun heq => hq' (Fin.ext (heq.trans hq.symm)), d', hd', Plane.clashes_iff.mpr ⟨hboth.2, hboth.1⟩⟩
  refine ⟨hagrees, hshared, fun b hb => ?_, ⟨fun r d hd => ?_, fun r r' d d' hrr hd hd' => ?_⟩, fun e en hen => ?_⟩
  · obtain ⟨r, g, e, en, pl, hr, hg, he, hen, hpl, hwithin⟩ := hinside b hb
    exact ⟨r, g, e, en, pl, hr, hg, he, hen, (hkept hen).trans hpl, hwithin⟩
  · have hd : look (put s.planes q p.descriptor?) r = some d := hd
    rw [look_put] at hd
    split_ifs at hd with hr
    · exact PlaneParams.sound_descriptor hdenial hd
    · exact hsound r d hd
  · have hd : look (put s.planes q p.descriptor?) r = some d := hd
    have hd' : look (put s.planes q p.descriptor?) r' = some d' := hd'
    rw [look_put] at hd hd'
    split_ifs at hd hd' with hr hr' hr'
    · exact absurd (hr.symm.trans hr') hrr
    · exact hnoClash hd (fun heq => hr' heq.symm) hd'
    · exact (hnoClash hd' (fun heq => hr heq.symm) hd).symm
    · exact happart r r' d d' hrr hd hd'
  · obtain ⟨r, g, pl, hr, hg, hpl, hrest⟩ := hfit e en hen
    exact ⟨r, g, pl, hr, hg, (hkept hen).trans hpl, hrest⟩

end Sys2Proof.Machine

/-! SUPPORT. The windows and the frames where operations complete (R7, R11, R15, R29, R34, R35). -/

namespace Sys2Proof.Machine

theorem State.Settled.agree_idle {s : State} (h : s.Settled) (he : s.engine = .idle) : s.DataSound :=
  ⟨h, by simp only [State.OperationHolds, he], State.scanHolds_of_not_scan (by rw [he]; exact nofun),
    State.fenceHolds_of_not_fence (by rw [he]; exact nofun)⟩

theorem State.Settled.post {s : State} (h : s.Settled) (r : Response) : (s.post r).DataSound :=
  State.Settled.agree_idle (s := s.post r) h rfl

theorem State.Settled.dropped {s : State} (h : s.Settled) : s.dropped.DataSound :=
  State.Settled.agree_idle (s := s.dropped) h rfl

theorem State.Settled.finish {s : State} (h : s.Settled) (r : CommandRecord) (status : Status) (payload : Payload)
    (found : Option Handle) : (s.finish r status payload found).DataSound := h.post _

/-! ## Frames where a record is written by the engine -/

/-- Writing or emptying a slot that is not ACTIVE leaves the size of the ACTIVE one. -/
theorem Placement.Sized.withSlot {p : Placement} {w h : U16} (hs : p.Sized w h) {x : SlotLetter}
    (hx : ∀ g, p.slot x = some g → g.phase ≠ .active) (v : Option Slot) : (p.withSlot x v).Sized w h := by
  obtain ⟨y, g, hg, hphase, hrest⟩ := hs
  have hyx : y ≠ x := fun heq => hx g (heq ▸ hg) hphase
  have hother : y = x.other := by cases x <;> cases y <;> simp_all [SlotLetter.other]
  exact ⟨y, g, by rw [hother, p.slot_withSlot_other, ← hother, hg], hphase, hrest⟩

/-- With the receivers left, the frames fit where each claimed record keeps the size of its ACTIVE slot. -/
theorem State.FramesFit.sameLinks {s t : State} (h : s.FramesFit) (hlinks : t.links = s.links)
    (hslots : ∀ l c f i p, s.context? l c = some f → f.claims i = true → s.placement? i = some p →
      ∃ q, t.placement? i = some q ∧ ∀ w h, p.Sized w h → q.Sized w h) : t.FramesFit := by
  obtain ⟨hclaims, hfifos⟩ := State.framesFit_iff.mp h
  refine State.framesFit_iff.mpr ⟨hclaims.keeps (fun l c f i hf hi => ⟨f, ?_, hi, rfl, rfl⟩) hslots, fun l g hg => ?_⟩
  · rwa [State.context?_congr hlinks] at hf
  · rw [hlinks] at hg ⊢
    exact hfifos l g hg

theorem State.Rewrites.framesFit {s t : State} {i : RecordNo} {p q : Placement} (hw : s.Rewrites t i p q) (h : s.FramesFit)
    (hlinks : t.links = s.links) (hsized : ∀ w h, p.Sized w h → q.Sized w h) : t.FramesFit :=
  h.sameLinks hlinks fun _ _ _ j r _ _ hr => by
    by_cases hj : j = i
    · rw [hj, hw.before] at hr
      cases hr
      exact ⟨q, hj ▸ hw.after, hsized⟩
    · exact ⟨r, (hw.others j hj).trans hr, fun _ _ => id⟩

/-- A record that no frame claims may be written. -/
theorem State.FramesFit.unclaimed {s t : State} (h : s.FramesFit) (hclaims : s.ClaimsAgree) {i : RecordNo}
    (hi : ∀ p, s.placement? i = some p → p.claim = none) (hlinks : t.links = s.links)
    (hothers : ∀ j, j ≠ i → t.placement? j = s.placement? j) : t.FramesFit :=
  h.sameLinks hlinks fun l c f j r hf hj hr => by
    refine ⟨r, (hothers j fun hji => ?_).trans hr, fun _ _ => id⟩
    obtain ⟨r', hr', hclaim⟩ := hclaims.2 l c f j hf hj
    rw [hi r' (hji ▸ hr')] at hclaim
    cases hclaim

/-! ## The ends of fences (R7, R15, R51) -/

theorem State.Settled.emptied {s : State} (h : s.Settled) {i : RecordNo} {p : Placement} {x : SlotLetter} {g : Slot}
    (hp : s.placement? i = some p) (hg : p.slot x = some g) (hph : g.phase = .superseded)
    (hbit : look s.commitSet i = false) (hbursts : ∀ b ∈ s.bursts, b.record = i → b.slot ∉ [x]) :
    (s.emptied i p x g).Settled := by
  obtain ⟨htables, hwindows, hframes⟩ := h
  have hw : s.Rewrites (s.emptied i p x g) i p (p.withSlot x none) := { State.rewrites_setPlacement hp _ with }
  refine ⟨htables.emptied hp hg hph hbit, hwindows.vacates (State.vacates_emptied hwindows.1 hp hg) hbursts,
    hw.framesFit hframes rfl fun w h hsized => hsized.withSlot (fun g' hg' => ?_) none⟩
  rw [hg] at hg'
  cases hg'
  rw [hph]
  exact nofun

theorem State.Settled.freed {s : State} (h : s.Settled) {i : RecordNo} {p : Placement} (hp : s.placement? i = some p)
    (hd : p.drain.isSome = true) (hc : p.claim = none) (hbit : look s.releaseSet i = false)
    (hbursts : ∀ b ∈ s.bursts, b.record = i → b.slot ∉ p.occupiedSlots) : (s.freed i p p.occupiedSlots).Settled := by
  obtain ⟨htables, hwindows, hframes⟩ := h
  have hf := State.frees_freed hp p.occupiedSlots
  refine ⟨htables.frees hf hd hc rfl rfl rfl hbit rfl rfl rfl, hwindows.vacates (State.vacates_freed hwindows.1 hp) hbursts,
    hframes.unclaimed htables.claimsAgree (fun q hq => ?_) rfl hf.others⟩
  rw [hp] at hq
  cases hq
  exact hc

/-- A fence ends with no burst of its slots queued. -/
theorem State.Settled.completeFence {s : State} (h : s.Settled) {op : FenceOperation}
    (ho : ({ s with engine := .fence op } : State).OperationHolds)
    (hbursts : ∀ i, op.request.record? = some i → ∀ b ∈ s.bursts, b.record = i → b.slot ∉ op.target) :
    (s.completeFence op).DataSound := by
  simp only [State.OperationHolds] at ho
  unfold State.completeFence
  cases hr : op.request with
  | sync r => exact h.finish r .ok .empty none
  | commit i =>
    simp only [hr] at ho
    obtain ⟨p, hp, htarget, hne, hbit⟩ := ho
    have hplaced : s.placement? i = some p := hp
    obtain ⟨x, g, hx, hg, hph⟩ := Placement.superseded_eq_one (h.tables.oneActive i p hplaced) (htarget ▸ hne)
    have hnone := hbursts i (by rw [hr]; rfl)
    simp only
    rw [htarget, hx] at hnone ⊢
    rw [State.completeCommit_one hplaced hg]
    exact (h.emptied hplaced hg hph hbit hnone).post _
  | release i =>
    simp only [hr] at ho
    obtain ⟨p, hp, hd, hc, htarget, hbit⟩ := ho
    have hplaced : s.placement? i = some p := hp
    have hnone := hbursts i (by rw [hr]; rfl)
    simp only
    rw [htarget] at hnone ⊢
    obtain ⟨r, heq⟩ := State.completeRelease_freed hplaced hd p.occupiedSlots
    rw [heq]
    exact (h.freed hplaced hd hc hbit hnone).post r

/-- A fence starts with the bursts of its slots marked, or ends at once with none queued. -/
theorem State.Settled.startFence {s : State} (h : s.Settled) {op : FenceOperation}
    (ho : ({ s with engine := .fence op } : State).OperationHolds)
    (hmarks : ∀ i, op.request.record? = some i → s.Marked i op.target op.awaited) : (s.startFence op).DataSound := by
  by_cases hwaits : awaiting op.awaited = true
  · rw [State.startFence_waits hwaits]
    exact ⟨h, ho, State.scanHolds_of_not_scan nofun, (State.fenceHolds_fence rfl).mpr hmarks⟩
  · rw [State.startFence_completes (Bool.eq_false_iff.mpr hwaits)]
    exact h.completeFence ho fun i hi => (hmarks i hi).none_left (Bool.eq_false_iff.mpr hwaits)

/-! ## The ends of scans (R4, R11, R29) -/

theorem State.fills_created {s : State} {i : RecordNo} (hfree : s.placement? i = none) (k : Key) (p : CreateParams) :
    s.Fills (s.created i k p) i .a { key := k, width := p.width, height := p.height, entries := s.allocated p.used } p.used where
  empty := State.listed?_of_free hfree .a
  lists j y := by
    have hplaced : (s.created i k p).placement? j =
        if i = j then some (p.placement k (s.allocated p.used)) else s.placement? j := State.placement?_setPlacement _ i j _
    by_cases hj : j = i
    · subst hj
      rw [if_pos rfl] at hplaced
      cases y with
      | a =>
        rw [if_pos ⟨rfl, rfl⟩]
        exact State.listed?_of_slot (x := .a) hplaced rfl
      | b =>
        rw [if_neg (by simp), State.listed?_of_free hfree]
        exact State.listed?_of_empty (x := .b) hplaced rfl
    · rw [if_neg (Ne.symm hj)] at hplaced
      rw [if_neg fun hjy => hj hjy.1]
      exact State.listed?_congr hplaced y
  entries := rfl
  pool := rfl
  planes := rfl
  links := rfl
  bursts := rfl

theorem State.fills_staging {s : State} {i : RecordNo} {b : Placement} {x : SlotLetter} (hb : s.placement? i = some b)
    (hx : b.slot x = none) (p : AmendParams) : s.Fills (s.staging i b x p) i x
      { key := b.key, width := p.width, height := p.height, entries := s.allocated p.used } p.used where
  empty := State.listed?_of_empty hb hx
  lists j y := by
    have hplaced : (s.staging i b x p).placement? j =
        if i = j then some (b.withSlot x (some (p.stagedSlot (s.allocated p.used)))) else s.placement? j :=
      State.placement?_setPlacement _ i j _
    by_cases hj : j = i
    · subst hj
      rw [if_pos rfl] at hplaced
      by_cases hy : y = x
      · subst hy
        rw [if_pos ⟨rfl, rfl⟩, State.listed?_of_slot hplaced (b.slot_withSlot_same y _), b.withSlot_key]
        rfl
      · have hother : y = x.other := by cases x <;> cases y <;> simp_all [SlotLetter.other]
        rw [if_neg fun hjy => hy hjy.2]
        exact State.listed?_eq hb hplaced (b.withSlot_key x _) (by rw [hother, b.slot_withSlot_other])
    · rw [if_neg (Ne.symm hj)] at hplaced
      rw [if_neg fun hjy => hj hjy.1]
      exact State.listed?_congr hplaced y
  entries := rfl
  pool := rfl
  planes := rfl
  links := rfl
  bursts := rfl

theorem State.Settled.created {s : State} (h : s.Settled) {i : RecordNo} {k : Key} {p : CreateParams}
    (hfree : s.placement? i = none) (hk : look s.keyIndex k.place = none)
    (hgeometry : geometryFault p.width p.height p.count p.used = none) (hslot : s.slotDenial k.link p.used = none)
    (hclear : s.OverlapFree none p.used) : (s.created i k p).Settled := by
  obtain ⟨htables, hwindows, hframes⟩ := h
  obtain ⟨hmutual, hapart⟩ := hclear
  refine ⟨htables.created hfree hk, hwindows.fills (State.fills_created hfree k p) (State.admits_of_checks hgeometry hslot)
    hmutual fun e en hen _ => hapart e en hen nofun, hframes.unclaimed (i := i) htables.claimsAgree (fun q hq => ?_) rfl fun j hj => ?_⟩
  · rw [hfree] at hq
    cases hq
  · exact (State.placement?_setPlacement _ i j _).trans (if_neg (Ne.symm hj))

theorem State.Settled.staging {s : State} (h : s.Settled) {i : RecordNo} {b : Placement} {x : SlotLetter} {p : AmendParams}
    (hb : s.placement? i = some b) (hx : b.slot x = none)
    (hgeometry : geometryFault p.width p.height p.count p.used = none) (hslot : s.slotDenial b.key.link p.used = none)
    (hclear : s.OverlapFree (some i) p.used) : (s.staging i b x p).Settled := by
  obtain ⟨htables, hwindows, hframes⟩ := h
  obtain ⟨hmutual, hapart⟩ := hclear
  have hw : s.Rewrites (s.staging i b x p) i b (b.withSlot x (some (p.stagedSlot (s.allocated p.used)))) :=
    { State.rewrites_setPlacement hb _ with }
  refine ⟨htables.staging hb hx p, hwindows.fills (State.fills_staging hb hx p) (State.admits_of_checks hgeometry hslot)
    hmutual fun e en hen hown => hapart e en hen fun heq => hown (Option.some.inj heq).symm,
    hw.framesFit hframes rfl fun w h hsized => hsized.withSlot (fun g hg => ?_) _⟩
  rw [hx] at hg
  cases hg

/-- A flip of an unclaimed record leaves the windows and the frames (R12, R13). -/
theorem State.Settled.takeFlip {s : State} (h : s.Settled) {i : RecordNo}
    (hi : ∀ p, s.placement? i = some p → p.claim = none) : (s.takeFlip i).Settled := by
  obtain ⟨htables, hwindows, hframes⟩ := h
  have hoff := s.offQueue_takeFlip i
  have hlinks := s.links_takeFlip i
  refine ⟨htables.takeFlip i, hwindows.same (s.sameLists_takeFlip i) (by rw [hoff]) (by rw [hoff])
    (fun j x v _ => by rw [hlinks]) (by rw [hoff]; exact fun _ => id), hframes.unclaimed htables.claimsAgree hi hlinks fun j hj => ?_⟩
  rcases s.takeFlip_cases i with heq | ⟨p, hp, -, heq⟩
  · rw [heq]
  · rw [heq]
    exact (State.placement?_setPlacement s i j p.flip).trans (if_neg (Ne.symm hj))

/-- What a scan that ends without a conflict makes of a state, before its result. -/
inductive State.ScanEnd (s : State) : State → Prop where
  | created (i : RecordNo) (k : Key) (p : CreateParams) (free : s.placement? i = none)
      (unkeyed : look s.keyIndex k.place = none) (geometry : geometryFault p.width p.height p.count p.used = none)
      (slot : s.slotDenial k.link p.used = none) (clear : s.OverlapFree none p.used) : s.ScanEnd (s.created i k p)
  | staged (i : RecordNo) (b : Placement) (x : SlotLetter) (p : AmendParams) (used : s.placement? i = some b)
      (empty : b.slot x = none) (geometry : geometryFault p.width p.height p.count p.used = none)
      (slot : s.slotDenial b.key.link p.used = none) (clear : s.OverlapFree (some i) p.used) : s.ScanEnd (s.staging i b x p)
  | flipped (i : RecordNo) (b : Placement) (x : SlotLetter) (p : AmendParams) (used : s.placement? i = some b)
      (empty : b.slot x = none) (geometry : geometryFault p.width p.height p.count p.used = none)
      (slot : s.slotDenial b.key.link p.used = none) (clear : s.OverlapFree (some i) p.used) (unclaimed : b.claim = none) :
      s.ScanEnd ((s.staging i b x p).takeFlip i)
  | planes (q : PlaneNo) (p : PlaneParams) (named : q.val = p.plane.toNat) (denial : p.denial = none)
      (off : ∀ (f : EntryNo) (en : Entry), look s.pool f = some en → en.plane.val ≠ p.plane.toNat)
      (clash : s.clashingPlane p = none) : s.ScanEnd { s with planes := put s.planes q p.descriptor? }

/-- A scan that ends without a conflict completes its operation with what it has found (R49, R53). -/
theorem State.ScanHolds.completeScan {s : State} (h : s.ScanHolds) (hactive : s.OneActive) {op : ScanOperation}
    (he : s.engine = .scan op) (hv : s.scanVerdict op = .clear) :
    ∃ u status payload found, s.ScanEnd u ∧ s.completeScan op.request = u.finish op.request status payload found := by
  simp only [State.ScanHolds, he] at h
  unfold State.completeScan
  cases hc : op.request.command with
  | create p =>
    simp only [hc] at h ⊢
    obtain ⟨hdenial, hfound⟩ := h
    obtain ⟨hsome, k, hk, -, hkey, hgeometry, hslot⟩ := State.createDenial_eq_none hdenial
    obtain ⟨i, hi⟩ := Option.isSome_iff_exists.mp hsome
    simp only [State.scanVerdict, hc] at hv
    exact ⟨_, _, _, _, .created i k p ((s.lowestFree_eq_some i).mp hi).1 hkey hgeometry hslot
      ((State.overlapVerdict_leaves hfound _).2 hv), State.completeCreate_some hi hk⟩
  | amend p =>
    simp only [hc] at h ⊢
    obtain ⟨hdenial, hfound⟩ := h
    obtain ⟨i, b, ⟨hindex, hb, -⟩, -, hpending, hgeometry, hslot⟩ := State.amendDenial_eq_none hdenial
    have hrecord : p.handle.record? = some i := inRange?_eq_some.mpr hindex
    simp only [State.scanVerdict, hc] at hv
    have hclear := (State.overlapVerdict_leaves hfound _).2 hv
    rw [hrecord] at hclear
    have hempty := Placement.slot_emptySlot (hactive i b hb) hpending
    rw [State.completeAmend_some hrecord hb]
    split
    · next hunclaimed =>
      exact ⟨_, _, _, _, .flipped i b b.emptySlot p hb hempty hgeometry hslot hclear
        (Option.isNone_iff_eq_none.mp hunclaimed), rfl⟩
    · exact ⟨_, _, _, _, .staged i b b.emptySlot p hb hempty hgeometry hslot hclear, rfl⟩
  | definePlane p =>
    simp only [hc] at h ⊢
    obtain ⟨hdenial, hfound⟩ := h
    simp only [State.scanVerdict, hc] at hv
    obtain ⟨hoff, hclash⟩ := (State.planeVerdict_leaves hfound).2 hv
    have hlt : p.plane.toNat < 4 := Nat.lt_succ_of_le (PlaneParams.denial_eq_none.mp hdenial).1
    have hq : inRange? 4 p.plane = some ⟨p.plane.toNat, hlt⟩ := inRange?_eq_some.mpr rfl
    simp only [State.completeDefinePlane, hq]
    exact ⟨_, _, _, _, .planes ⟨p.plane.toNat, hlt⟩ p rfl hdenial hoff hclash, rfl⟩
  | setAttributes | retire | lookup | query | configureLink | configureFramestore | setLevels | readCounters | sync =>
    simp only [hc] at h

/-- A slot that is staged leaves the claim. -/
theorem State.staging_claim {s : State} {i : RecordNo} {b : Placement} {x : SlotLetter} {p : AmendParams} (h : b.claim = none) :
    ∀ q, (s.staging i b x p).placement? i = some q → q.claim = none := fun q hq => by
  have hafter : (s.staging i b x p).placement? i = some _ := State.placement?_setPlacement_same _ i _
  rw [hafter] at hq
  cases hq
  rw [b.withSlot_claim, h]

theorem State.Settled.scanEnd {s u : State} (h : s.Settled) (he : s.ScanEnd u) : u.Settled := by
  cases he with
  | created i k p free unkeyed geometry slot clear => exact h.created free unkeyed geometry slot clear
  | staged i b x p used empty geometry slot clear => exact h.staging used empty geometry slot clear
  | flipped i b x p used empty geometry slot clear unclaimed =>
    exact (h.staging used empty geometry slot clear).takeFlip (State.staging_claim unclaimed)
  | planes q p named denial off clash =>
    obtain ⟨htables, hwindows, hframes⟩ := h
    exact ⟨htables, hwindows.definePlane named denial off clash, hframes⟩

/-- What a scan has found grows with its position. -/
theorem State.ScanHolds.goOn {s : State} (h : s.ScanHolds) {op : ScanOperation} (he : s.engine = .scan op)
    {position : ScanPosition} (hv : s.scanVerdict op = .goOn position) :
    ({ s with engine := .scan { op with position := position } } : State).ScanHolds := by
  simp only [State.ScanHolds, he] at h
  unfold State.ScanHolds
  cases hc : op.request.command with
  | create p =>
    simp only [State.scanVerdict, hc] at hv
    simp only [hc] at h ⊢
    exact ⟨h.1, (State.overlapVerdict_leaves h.2 _).1 position hv⟩
  | amend p =>
    simp only [State.scanVerdict, hc] at hv
    simp only [hc] at h ⊢
    exact ⟨h.1, (State.overlapVerdict_leaves h.2 _).1 position hv⟩
  | definePlane p =>
    simp only [State.scanVerdict, hc] at hv
    simp only [hc] at h ⊢
    exact ⟨h.1, (State.planeVerdict_leaves h.2).1 position hv⟩
  | setAttributes | retire | lookup | query | configureLink | configureFramestore | setLevels | readCounters | sync =>
    simp only [hc] at h

theorem State.DataSound.stepScan {s : State} (h : s.DataSound) {op : ScanOperation} (he : s.engine = .scan op) :
    (s.stepScan op).DataSound := by
  obtain ⟨hsettled, ho, hscan, -⟩ := h
  unfold State.stepScan
  split
  · have hdraws : ({ s with draws := s.draws + 1 } : State).Settled := hsettled
    exact hdraws.finish _ _ _ _
  · next position hv =>
    refine ⟨hsettled, ?_, hscan.goOn he hv, State.fenceHolds_of_not_fence nofun⟩
    simp only [State.OperationHolds, he] at ho ⊢
    exact ho
  · next hv =>
    obtain ⟨u, status, payload, found, hend, heq⟩ := hscan.completeScan hsettled.tables.oneActive he hv
    rw [heq]
    exact (hsettled.scanEnd hend).finish _ _ _ _

end Sys2Proof.Machine

/-! SUPPORT. The windows, the frames and what the operation in flight has found, through every event (R28 to R40, R48, R51,
R121, R143). -/

namespace Sys2Proof.Machine

/-! ## Runs -/

theorem State.Settled.begun {s : State} (h : s.Settled) (x : Source) (q : Request) : (s.begun x q).Settled := by
  obtain ⟨htables, hwindows, hframes⟩ := h
  refine ⟨htables.begun x q, ?_, ?_⟩
  · rw [State.begun_frame]
    exact hwindows
  · rw [State.begun_frame]
    exact hframes

/-- One record passes to fields with the same key and slots. -/
theorem State.Settled.rewrites {s t : State} (h : s.Settled) {i : RecordNo} {p q : Placement} (hw : s.Rewrites t i p q)
    (htables : t.TablesSettled) (hkey : q.key = p.key) (hslots : ∀ x, q.slot x = p.slot x) (hpool : t.pool = s.pool)
    (hplanes : t.planes = s.planes) (hlinks : t.links = s.links) (hbursts : t.bursts = s.bursts) : t.Settled := by
  obtain ⟨-, hwindows, hframes⟩ := h
  exact ⟨htables, hwindows.same (hw.sameLists_of_slots hkey hslots) hpool hplanes (fun _ _ _ _ => by rw [hlinks])
    (by rw [hbursts]; exact fun _ => id), hw.framesFit hframes hlinks fun _ _ hsized => hsized.slots hslots⟩

theorem State.Settled.drain {s : State} (h : s.Settled) {i : RecordNo} {p : Placement} (hp : s.placement? i = some p)
    (hd : p.drain = none) (cause : DrainCause) (abort : Bool) : (s.drain i p cause abort).Settled := by
  obtain ⟨hpool, hplanes, hlinks, -, hbursts⟩ := s.drain_leaves i p cause abort
  exact h.rewrites (State.rewrites_drain hp cause abort) (h.tables.drain hp hd cause abort) rfl (fun x => by cases x <;> rfl)
    hpool hplanes hlinks hbursts

theorem State.DataPath.steady {s t : State} (path : s.DataPath t) : s.Steady t :=
  State.DataPath.keeps (P := s.Steady) (fun _ _ h hmove => h.trans hmove.steady)
    (State.steady_of_links rfl rfl (.refl s)) path

/-- A record that a path of moves leaves in use has the key it had. -/
theorem State.TablesSettled.holdsLink_path {s t : State} (h : s.TablesSettled) (path : s.DataPath t) {l : LinkNo} {i : RecordNo}
    (hl : t.HoldsLink l i) : s.HoldsLink l i := by
  have hkeeps : t.TablesSettled ∧ s.KeepsOperation t :=
    State.DataPath.keeps (P := fun u => u.TablesSettled ∧ s.KeepsOperation u)
      (fun _ _ ⟨hu, hk⟩ hmove => ⟨hu.move hmove, hk.trans (hu.keepsOperation_move hmove)⟩)
      ⟨h, State.keepsOperation_of_cores (.of_eq fun _ => rfl) rfl rfl (fun _ => rfl) rfl rfl⟩ path
  obtain ⟨-, hk⟩ := hkeeps
  obtain ⟨q, hq, hkey⟩ := hl
  cases hp : s.placement? i with
  | none =>
    rw [hk.free i hp] at hq
    cases hq
  | some p =>
    obtain ⟨q', hq', hrecord⟩ := hk.used i p hp
    rw [hq] at hq'
    cases hq'
    exact ⟨p, hp, by rw [← hrecord.key, hkey]⟩

/-- A link takes another mode or pixel size only where no record holds a key on it, and none of its segments waits
(R108, R109, R136). -/
theorem State.Settled.configureLink {u : State} (h : u.Settled) (hlinks : u.LinksAccounted) (l : LinkNo) (enable single : Bool)
    (z : PixelSize) (free : (look u.links l).changes single z = true → ∀ i, ¬ u.HoldsLink l i) :
    (u.configureLink l enable single z).Settled := by
  obtain ⟨v, path, heq, hemptied, hkept⟩ := u.configureLink_path l enable single z
  obtain ⟨htables, hwindows, hframes⟩ := h.dataPath path
  obtain ⟨hclaimsFit, hfifosFit⟩ := State.framesFit_iff.mp hframes
  have hsteady := path.steady
  have hsame (hno : ¬ (look u.links l).changes single z = true) : z = (look v.links l).pixelSize := by
    rw [Link.changes_iff, not_or, not_not, not_not] at hno
    rw [hsteady.pixelSize, hno.2]
  obtain ⟨k, hk⟩ : ∃ k, k = ({ look v.links l with enable := enable, single := single, pixelSize := z } : Link) := ⟨_, rfl⟩
  have hlink (m : LinkNo) : look (v.setLink l k).links m = if l = m then k else look v.links m := by
    rw [State.setLink_links, look_put]
  have hcores : v.SameCores (v.setLink l k) := .of_eq fun _ => rfl
  rw [heq, ← hk]
  refine ⟨htables.setLink (by rw [hk]), hwindows.same hcores.sameLists rfl rfl (fun i x w hw => ?_) (fun _ => id),
    State.framesFit_iff.mpr ⟨hclaimsFit.sameCores hcores (State.context?_setLink (by rw [hk])), fun m g hg => ?_⟩⟩
  · rw [hlink]
    split_ifs with hm
    · rw [hk, ← hm]
      by_cases hchanges : (look u.links l).changes single z = true
      · obtain ⟨p, g, hp, -, rfl⟩ := State.listed?_eq_some.mp hw
        exact absurd (h.tables.holdsLink_path path ⟨p, hp, hm.symm⟩) (free hchanges i)
      · exact hsame hchanges
    · rfl
  · rw [hlink] at hg ⊢
    split_ifs at hg ⊢ with hm
    · rw [hk] at hg ⊢
      by_cases hempty : (look v.links l).fifo = []
      · have hg : g ∈ (look v.links l).fifo := hg
        rw [hempty] at hg
        cases hg
      · have hnot : ¬ (look u.links l).emptiedBy enable single z = true := fun hyes => hempty (hemptied hyes)
        have hlocked : (look u.links l).state = .locked :=
          (hlinks l).locked_of_fifo fun hnil => hempty ((hkept hnot).trans hnil)
        have hno : ¬ (look u.links l).changes single z = true := fun hchanges =>
          hnot (Link.emptiedBy_iff.mpr ⟨by rw [hlocked]; exact nofun, .inr hchanges⟩)
        rw [hsame hno]
        exact hfifosFit l g hg
    · exact hfifosFit m g hg

theorem State.Settled.hostRun {u t : State} {x : Source} {r : CommandRecord} (h : u.Settled) (hlinks : u.LinksAccounted)
    (run : u.HostRun x r t) : t.DataSound := by
  have hscan {position : ScanPosition} (htables : (u.enterScan x r position).TablesAgree)
      (hholds : (u.enterScan x r position).ScanHolds) : (u.enterScan x r position).DataSound :=
    ⟨h, (State.tablesAgree_iff.mp htables).2, hholds, State.fenceHolds_of_not_fence nofun⟩
  cases run with
  | completes status payload found => exact h.finish r status payload found
  | create p kind passed =>
    refine hscan (h.tables.hostRun (.create p kind passed)) ?_
    simp only [State.ScanHolds, State.enterScan, kind]
    exact ⟨passed, trivial⟩
  | amend p kind passed =>
    refine hscan (h.tables.hostRun (.amend p kind passed)) ?_
    simp only [State.ScanHolds, State.enterScan, kind]
    exact ⟨passed, trivial⟩
  | definePlane p kind passed =>
    have hfound : u.PlaneFound p (u.planeNext 0) := State.planeFound_next fun f en hf => absurd hf (Nat.not_lt_zero _)
    refine hscan (h.tables.hostRun (.definePlane p kind passed)) ?_
    simp only [State.ScanHolds, State.enterScan, kind]
    exact ⟨passed, hfound.congr rfl⟩
  | attributes i b p used => exact (h.move (.report i b (b.withAttributes p) used rfl)).finish r _ _ _
  | retire i b abort payload used live => exact (h.drain used live .retire abort).finish r _ _ _
  | configureLink l enable single z free =>
    unfold State.completeConfigureLink
    have hdone := (h.configureLink hlinks l enable single z free).finish r .ok
      (.linkConfigured l enable single z (look (u.configureLink l enable single z).links l).state) none
    simp only
    split
    · exact hdone.dataPath (State.dataPath_grantAll _)
    · exact hdone
  | timeout n payload =>
    have h' : ({ u with ackTimeout := n } : State).Settled := h
    exact h'.finish r _ _ _
  | levels ls payload =>
    have h' : ({ u with levels := ls } : State).Settled := h
    exact h'.finish r _ _ _
  | recordCounters i b payload used =>
    exact (h.move (.report i b { b with counters := RecordCounters.zero } used rfl)).finish r _ _ _
  | linkCounters l payload =>
    have h' : (u.setLink l { look u.links l with counters := Vector.replicate 8 0 }).Settled :=
      h.move (.link l _ rfl rfl rfl fun _ hg => .inl hg)
    exact h'.finish r _ _ _
  | portCounters payload =>
    have h' : ({ u with fsRefused := 0, fsTimeout := 0 } : State).Settled := h
    exact h'.finish r _ _ _
  | sync kind => exact h.startFence (by simp only [State.OperationHolds]) fun i hi => (by cases hi)

theorem State.Settled.internalRun {s t : State} {i : RecordNo} {x : Source} (h : s.Settled) (hs : s.Starts x (.internal i))
    (run : (s.begun x (.internal i)).InternalRun i x t) : t.DataSound := by
  have hbegun := h.begun x (.internal i)
  cases run with
  | dropped => exact hbegun.dropped
  | expire p used due =>
    unfold State.expire
    split
    · exact (hbegun.drain used (Placement.expires_iff.mp due).1 .silence true).post _
    · exact hbegun.post _
  | commit p used =>
    refine hbegun.startFence (h.tables.commit_holds hs used rfl rfl) fun j hj => ?_
    cases hj
    exact State.marked_tagged _ i _
  | release p used =>
    refine hbegun.startFence (h.tables.release_holds hs used rfl rfl) fun j hj => ?_
    cases hj
    exact State.marked_tagged _ i _

/-! ## Departures -/

theorem State.Settled.departed {s : State} (h : s.Settled) : s.departed.Settled := by
  obtain ⟨htables, hwindows, hframes⟩ := h
  have hbursts := s.departed_bursts
  have hlists : s.SameLists s.departed := State.sameLists_of_placements (State.placement?_congr s.departed_records)
  refine ⟨htables.departed, hwindows.same hlists s.departed_pool (by rw [State.departed_frame])
    (fun _ _ _ _ => by rw [State.departed_frame]) (by rw [hbursts]; exact fun _ => List.mem_of_mem_tail), ?_⟩
  rw [State.departed_frame]
  exact hframes

/-- The fence in flight loses the mark of the burst that departs, or ends with none of its bursts queued. -/
theorem State.DataSound.depart {s : State} (h : s.DataSound) : s.depart.DataSound := by
  have htables := h.tablesAgree.depart
  obtain ⟨hsettled, ho, hscan, hmarks⟩ := h
  by_cases hfence : ∃ op, s.engine = .fence op
  · obtain ⟨op, he⟩ := hfence
    have htail (i : RecordNo) (hi : op.request.record? = some i) : s.departed.Marked i op.target op.awaited.tail :=
      ((State.fenceHolds_fence he).mp hmarks i hi).tail s.departed_bursts
    by_cases hwaits : awaiting op.awaited.tail = true
    · rw [State.depart_waits he hwaits] at htables ⊢
      exact ⟨hsettled.departed, (State.tablesAgree_iff.mp htables).2, State.scanHolds_of_not_scan nofun,
        (State.fenceHolds_fence rfl).mpr htail⟩
    · rw [State.depart_ends he (Bool.eq_false_iff.mpr hwaits)]
      refine hsettled.departed.completeFence ?_ fun i hi => (htail i hi).none_left (Bool.eq_false_iff.mpr hwaits)
      rw [State.departed_frame, ← he]
      exact ho
  · have hno : ∀ op, s.engine ≠ .fence op := fun op he => hfence ⟨op, he⟩
    rw [State.depart_plain hno] at htables ⊢
    refine ⟨hsettled.departed, (State.tablesAgree_iff.mp htables).2, ?_, State.fenceHolds_of_not_fence ?_⟩
    · rw [State.departed_frame]
      exact hscan
    · rw [State.departed_engine]
      exact hno

/-! ## Time and transactions -/

theorem State.DataSound.boundary {s : State} (h : s.DataSound) : s.boundary.DataSound := by
  have htables := h.tablesAgree.boundary
  obtain ⟨⟨-, hwindows, hframes⟩, -, hscan, hfence⟩ := h
  obtain ⟨hclaimsFit, hfifosFit⟩ := State.framesFit_iff.mp hframes
  have hcores := s.sameCores_boundary
  have hgenerations := s.generation_boundary
  have hframe : s.boundary = { s with
    timebase := s.boundary.timebase, records := s.boundary.records, expirySet := s.boundary.expirySet } := rfl
  rw [hframe] at hcores hgenerations htables ⊢
  generalize s.boundary.timebase = timebase at hcores hgenerations htables ⊢
  generalize s.boundary.records = records at hcores hgenerations htables ⊢
  generalize s.boundary.expirySet = expirySet at hcores hgenerations htables ⊢
  obtain ⟨hsettled, ho⟩ := State.tablesAgree_iff.mp htables
  exact ⟨⟨hsettled, hwindows.same hcores.sameLists rfl rfl (fun _ _ _ _ => rfl) (fun _ => id),
    State.framesFit_iff.mpr ⟨hclaimsFit.sameCores hcores fun _ _ => rfl, hfifosFit⟩⟩, ho,
    hscan.keeps (State.keepsOperation_of_cores hcores rfl rfl hgenerations rfl rfl)
      (State.steady_of_links rfl rfl (State.offContexts_of_links rfl)), hfence⟩

theorem State.DataSound.preempt {s : State} (h : s.DataSound) (r : CommandRecord) : (s.preempt r).DataSound := by
  unfold State.preempt
  split
  · next op _ =>
    split
    · obtain ⟨hsettled, -⟩ := h
      exact State.Settled.agree_idle (s := s.cancelScan op) hsettled rfl
    · exact h
  · exact h
  · exact h

/-- The windows and the tables, and the grants apart. -/
theorem State.windowsApart_iff_dataSound {s : State} : s.TablesAgree ∧ s.WindowsApart ↔ s.DataSound ∧ s.granted = none := by
  rw [State.tablesAgree_iff, State.windowsApart_iff]
  exact ⟨fun ⟨⟨htables, ho⟩, hwindows, hframes, hscan, hfence, hgranted⟩ =>
      ⟨⟨⟨htables, hwindows, hframes⟩, ho, hscan, hfence⟩, hgranted⟩,
    fun ⟨⟨⟨htables, hwindows, hframes⟩, ho, hscan, hfence⟩, hgranted⟩ =>
      ⟨⟨htables, ho⟩, hwindows, hframes, hscan, hfence, hgranted⟩⟩

theorem State.Cleared.dataSound {s : State} (h : s.Cleared) (hplanes : s.PlanesApart) : s.DataSound ∧ s.granted = none :=
  State.windowsApart_iff_dataSound.mp ⟨h.tablesAgree, h.windowsApart hplanes⟩

theorem State.DataSound.planesApart {s : State} (h : s.DataSound) : s.PlanesApart := by
  obtain ⟨⟨-, ⟨-, -, -, hplanes, -⟩, -⟩, -⟩ := h
  exact hplanes

theorem State.DataSound.portEffect {s u : State} (h : s.DataSound) (he : s.PortEffect u) : u.DataSound := by
  cases he with
  | answer bytes => exact h
  | push r room => exact h
  | priority r =>
    have h' : ({ s with prioritySlot := some r } : State).DataSound := h
    exact h'.preempt r
  | withdraw bytes => exact h
  | flush => exact h
  | pop r rest bytes filled => exact h
  | status bytes => exact h
  | link l bytes =>
    have h' : (s.setLink l { look s.links l with attention := false }).DataSound :=
      h.move (.link l _ rfl rfl rfl fun _ hg => .inl hg)
    exact h'
  | framestore bytes => exact h
  | controls mask gate mark => exact h
  | tableReset => exact (s.cleared_tableReset.dataSound h.planesApart).1

/-! ## Every event -/

theorem State.DataSound.event {s t : State} (h : s.DataSound) (hlinks : s.LinksAccounted) (he : s.Event t) : t.DataSound := by
  have hsettled : s.Settled := h.1
  cases he with
  | nothing => exact h
  | powerOn =>
    exact ((State.cleared_fresh s.pending s.draws s.frame.afterPowerOn).dataSound
      (State.planesApart_fresh s.pending s.draws s.frame.afterPowerOn)).1
  | frame f short => exact h
  | transaction u effect =>
    have h' := h.portEffect effect
    exact h'
  | host x r t starts run =>
    refine (hsettled.begun x _).hostRun ?_ run
    rw [State.LinksAccounted, State.begun_links]
    exact hlinks
  | internal x i t starts run => exact hsettled.internalRun starts run
  | scan op inFlight => exact h.stepScan inFlight
  | departure how answers =>
    have hcounted : (s.countDeparture how).DataSound := by
      cases how <;> exact h
    exact hcounted.depart.dataPath (State.dataPath_grantAll _)
  | seek l good seeking =>
    obtain ⟨hcontexts, hsingle, hsize, hfifo⟩ := (look s.links l).seek_keeps good
    exact h.move (.link l _ hcontexts hsingle hsize fun g hg => .inl (hfifo ▸ hg))
  | headerError l locked => exact h.dataPath (s.dataPath_lockedError l)
  | segment l g locked whole => exact h.dataPath (s.dataPath_lockedGood l whole)
  | grant => exact h.dataPath s.dataPath_grantAll
  | abortIgnored a => exact h.move (.abort a)
  | abort a f claiming => exact ((h.move (.abort a)).dataPath (State.dataPath_truncate _ _ _)).dataPath (State.dataPath_grantAll _)
  | boundary => exact h.boundary

end Sys2Proof.Machine

/-! SUPPORT. No possible grant waits: what the room requests and the turn read, and the operations that leave it (R139, R144,
R145). -/

namespace Sys2Proof.Machine

/-! ## What a grant reads (R144, R145) -/

theorem State.granted_congr {s t : State} (hlast : t.lastGranted = s.lastGranted) (hbursts : t.bursts.length = s.bursts.length)
    (hrequests : ∀ l, t.roomRequest l = s.roomRequest l) : t.granted = s.granted := by
  unfold State.granted State.linkInTurn State.turn State.burstRoom
  simp only [hlast, hbursts, hrequests]

/-- What the checks and the bursts of a line read of a frame (R130, R131). -/
def Frame.lineView (f : Frame) : FramePhase × U16 × Option U16 × U16 := (f.phase, f.height, f.last, f.width)

theorem Frame.lineFault_congr {f f' : Frame} (h : f'.lineView = f.lineView) (g : Segment) : f'.lineFault g = f.lineFault g := by
  unfold Frame.lineView at h
  simp only [Prod.mk.injEq] at h
  obtain ⟨-, hheight, hlast, hwidth⟩ := h
  simp only [Frame.lineFault, hheight, hlast, hwidth]

theorem Frame.phase_of_lineView {f f' : Frame} (h : f'.lineView = f.lineView) : f'.phase = f.phase := congrArg Prod.fst h

/-- The destinations that take the lines of the records that the frames of link `l` claim are the same in `t`. -/
def State.KeepsTakers (s t : State) (l : LinkNo) : Prop :=
  ∀ c f i n, s.context? l c = some f → f.claims i = true → t.takers i n = s.takers i n

theorem State.lineBursts_congr {s t : State} {l : LinkNo} (hsingle : (look t.links l).single = (look s.links l).single)
    (hframes : ∀ c, (t.context? l c).map Frame.lineView = (s.context? l c).map Frame.lineView) (htakers : s.KeepsTakers t l)
    (g : Segment) : t.lineBursts l g = s.lineBursts l g := by
  have hcontext : (look t.links l).contextOf g = (look s.links l).contextOf g := by
    rw [Link.contextOf, Link.contextOf, hsingle]
  have hview := hframes ((look s.links l).contextOf g)
  unfold State.lineBursts
  rw [hcontext]
  cases hf : s.context? l ((look s.links l).contextOf g) with
  | none =>
    rw [hf, Option.map_none, Option.map_eq_none_iff] at hview
    rw [hview]
  | some f =>
    rw [hf, Option.map_some] at hview
    obtain ⟨f', hf', heq⟩ := Option.map_eq_some_iff.mp hview
    rw [hf']
    simp only [Frame.lineFault_congr heq, Frame.phase_of_lineView heq]
    cases f.lineFault g with
    | some n => rfl
    | none =>
      cases hph : f.phase with
      | placing i => simp only [htakers _ f i _ hf (Frame.claims_iff_phase.mpr (.inl hph))]
      | holding i => rfl
      | refused => rfl
      | unrouted => rfl

/-- A link's room request reads its FIFO, its mode, its frames and the takers of their lines (R131, R139). -/
theorem State.roomRequest_congr {s t : State} {l : LinkNo} (hfifo : (look t.links l).fifo = (look s.links l).fifo)
    (hsingle : (look t.links l).single = (look s.links l).single)
    (hframes : ∀ c, (t.context? l c).map Frame.lineView = (s.context? l c).map Frame.lineView) (htakers : s.KeepsTakers t l) :
    t.roomRequest l = s.roomRequest l := by
  unfold State.roomRequest
  rw [hfifo]
  simp only [State.lineBursts_congr hsingle hframes htakers]

theorem State.keepsTakers_of_same {s t : State} (hrecords : t.records = s.records) (hpool : t.pool = s.pool)
    (hplanes : t.planes = s.planes) (l : LinkNo) : s.KeepsTakers t l := fun c f i n _ _ => by
  simp only [State.takers, State.placement?, hrecords, hpool, hplanes]

/-- Where the tables, the receivers, the queue and the turn are as they were, so are the grants. -/
theorem State.granted_same {s t : State} (hrecords : t.records = s.records) (hpool : t.pool = s.pool)
    (hplanes : t.planes = s.planes) (hlinks : t.links = s.links) (hlast : t.lastGranted = s.lastGranted)
    (hbursts : t.bursts = s.bursts) : t.granted = s.granted :=
  State.granted_congr hlast (by rw [hbursts]) fun l => State.roomRequest_congr (by rw [hlinks]) (by rw [hlinks])
    (fun c => by rw [State.context?_congr hlinks]) (State.keepsTakers_of_same hrecords hpool hplanes l)

/-- A receiver written but for its frames, the head of its FIFO, and its mode where a segment waits, leaves the grants. -/
theorem State.granted_setLink {s : State} {l : LinkNo} {k : Link} (hcontexts : k.contexts = (look s.links l).contexts)
    (hhead : k.fifo.head? = (look s.links l).fifo.head?) (hsingle : k.fifo ≠ [] → k.single = (look s.links l).single) :
    (s.setLink l k).granted = s.granted := by
  refine State.granted_congr rfl rfl fun m => ?_
  have hframes (c : Channel) : ((s.setLink l k).context? m c).map Frame.lineView = (s.context? m c).map Frame.lineView := by
    rw [State.context?_setLink hcontexts]
  have htakers : s.KeepsTakers (s.setLink l k) m := State.keepsTakers_of_same rfl rfl rfl m
  have hlink : look (s.setLink l k).links m = if l = m then k else look s.links m := by rw [State.setLink_links, look_put]
  by_cases hm : l = m
  · subst hm
    rw [if_pos rfl] at hlink
    cases hk : k.fifo with
    | nil =>
      have hnil : (look s.links l).fifo = [] := by rw [← List.head?_eq_none_iff, ← hhead, hk, List.head?_nil]
      rw [State.roomRequest_of_fifo_nil (by rw [hlink, hk]), State.roomRequest_of_fifo_nil hnil]
    | cons g rest =>
      rw [hk, List.head?_cons] at hhead
      obtain ⟨rest', hs⟩ := List.head?_eq_some_iff.mp hhead.symm
      have hsame : (look (s.setLink l k).links l).single = (look s.links l).single := by
        rw [hlink]
        exact hsingle (by rw [hk]; exact List.cons_ne_nil g rest)
      simp only [State.roomRequest, hlink, hk, hs, State.lineBursts_congr hsame hframes htakers]
  · rw [if_neg hm] at hlink
    exact State.roomRequest_congr (by rw [hlink]) (by rw [hlink]) hframes htakers

/-! ## The takers, where the engine writes records, entries and planes -/

/-- The ACTIVE slot is found where it was. -/
theorem Placement.find?_active_congr {p q : Placement} (hp : (p.slotsIn .active).length = 1) (hq : (q.slotsIn .active).length = 1)
    (hkeeps : ∀ x g, p.slot x = some g → g.phase = .active → q.slot x = some g) : q.find? .active = p.find? .active := by
  obtain ⟨x, hx⟩ := List.length_eq_one_iff.mp hp
  have hphase : p.phase? x = some .active := Placement.mem_slotsIn.mp (by rw [hx]; exact List.mem_singleton.mpr rfl)
  obtain ⟨g, hg, hactive⟩ := Option.map_eq_some_iff.mp hphase
  have hqx := hkeeps x g hg hactive
  obtain ⟨y, hy⟩ := List.length_eq_one_iff.mp hq
  have hxy : x = y := by
    have hmem : x ∈ q.slotsIn .active := Placement.mem_slotsIn.mpr (by rw [Placement.phase?_of_slot hqx, hactive])
    rw [hy] at hmem
    exact List.mem_singleton.mp hmem
  rw [Placement.find?_of_slotsIn hx hg, Placement.find?_of_slotsIn (hxy ▸ hy) hqx]

theorem State.takers_congr {s t : State} {i : RecordNo} {p q : Placement} (hp : s.placement? i = some p)
    (hq : t.placement? i = some q) (hfind : q.find? .active = p.find? .active)
    (hentries : ∀ x g e, p.find? .active = some (x, g) → e ∈ g.entries → look t.pool e = look s.pool e)
    (hplanes : ∀ e en, look s.pool e = some en → look t.planes en.plane = look s.planes en.plane) (n : Nat) :
    t.takers i n = s.takers i n := by
  unfold State.takers
  rw [hp, hq, Option.bind_some, Option.bind_some, hfind]
  cases hactive : p.find? .active with
  | none => rfl
  | some xg =>
    obtain ⟨x, g⟩ := xg
    refine List.filterMap_congr fun e he => ?_
    rw [hentries x g e hactive he]
    cases hen : look s.pool e with
    | none => rfl
    | some en => simp only [Option.bind_some, hplanes e en hen]

/-- The takers of a record whose slots are as they were, with the entries and the planes. -/
theorem State.takers_of_slots {s t : State} (hpool : t.pool = s.pool) (hplanes : t.planes = s.planes) {i : RecordNo}
    {p q : Placement} (hp : s.placement? i = some p) (hq : t.placement? i = some q) (hslots : ∀ x, q.slot x = p.slot x) (n : Nat) :
    t.takers i n = s.takers i n := by
  have hA : q.slotA = p.slotA := hslots .a
  have hB : q.slotB = p.slotB := hslots .b
  exact State.takers_congr hp hq (by simp only [Placement.find?, hA, hB]) (fun _ _ _ _ _ => by rw [hpool])
    (fun _ _ _ => by rw [hplanes]) n

/-- The ACTIVE slots of claimed records stay, with their entries and the planes they lie on. -/
structure State.KeepsActive (s t : State) : Prop where
  slots : ∀ i p, s.placement? i = some p → p.claim ≠ none →
    ∃ q, t.placement? i = some q ∧ ∀ x g, p.slot x = some g → g.phase = .active → q.slot x = some g
  entries : ∀ e en p g, look s.pool e = some en → s.placement? en.owner = some p → p.claim ≠ none → p.slot en.slot = some g →
    g.phase = .active → look t.pool e = some en
  planes : ∀ e en, look s.pool e = some en → look t.planes en.plane = look s.planes en.plane

/-- The grants stay where the engine writes the tables but for the ACTIVE slots of claimed records. -/
theorem State.KeepsActive.granted {s t : State} (h : s.KeepsActive t) (hs : s.Settled) (ht : t.TablesSettled)
    (hlinks : t.links = s.links) (hlast : t.lastGranted = s.lastGranted) (hbursts : t.bursts = s.bursts) :
    t.granted = s.granted := by
  obtain ⟨htables, ⟨hagrees, -⟩, -⟩ := hs
  refine State.granted_congr hlast (by rw [hbursts]) fun l => State.roomRequest_congr (by rw [hlinks]) (by rw [hlinks])
    (fun c => by rw [State.context?_congr hlinks]) fun c f i n hf hi => ?_
  obtain ⟨p, hp, hclaim⟩ := htables.claimsAgree.2 l c f i hf hi
  have hclaimed : p.claim ≠ none := by rw [hclaim]; exact Option.some_ne_none _
  obtain ⟨q, hq, hslots⟩ := h.slots i p hp hclaimed
  refine State.takers_congr hp hq (Placement.find?_active_congr (htables.oneActive i p hp) (ht.oneActive i q hq) hslots)
    (fun x g e hfind he => ?_) h.planes n
  obtain ⟨hg, hactive⟩ := Placement.find?_eq_some hfind
  obtain ⟨-, -, -, howns⟩ := hagrees.2 i p x g hp hg
  obtain ⟨en, hen, rfl, rfl⟩ := howns e he
  rw [hen, h.entries e en p g hen hp hclaimed hg hactive]

/-- Every record keeps its slots, with the entries and the planes. -/
theorem State.keepsActive_of_slots {s t : State} (hpool : t.pool = s.pool) (hplanes : t.planes = s.planes)
    (hslots : ∀ i p, s.placement? i = some p → ∃ q, t.placement? i = some q ∧ ∀ x, q.slot x = p.slot x) : s.KeepsActive t where
  slots i p hp _ := by
    obtain ⟨q, hq, hslot⟩ := hslots i p hp
    exact ⟨q, hq, fun x g hg _ => (hslot x).trans hg⟩
  entries e en p g hen _ _ _ _ := by rw [hpool, hen]
  planes e en _ := by rw [hplanes]

theorem State.SameCores.keepsActive {s t : State} (h : s.SameCores t) (hpool : t.pool = s.pool) (hplanes : t.planes = s.planes) :
    s.KeepsActive t :=
  State.keepsActive_of_slots hpool hplanes fun i p hp => by
    obtain ⟨q, hq, hcore⟩ := h.symm.exists hp
    exact ⟨q, hq, Placement.slot_of_core hcore.symm⟩

theorem State.Rewrites.keepsActive {s t : State} {i : RecordNo} {p q : Placement} (hw : s.Rewrites t i p q)
    (hpool : t.pool = s.pool) (hplanes : t.planes = s.planes) (hslots : ∀ x, q.slot x = p.slot x) : s.KeepsActive t :=
  State.keepsActive_of_slots hpool hplanes fun j r hr => by
    by_cases hj : j = i
    · rw [hj, hw.before] at hr
      cases hr
      exact ⟨q, hj ▸ hw.after, hslots⟩
    · exact ⟨r, (hw.others j hj).trans hr, fun _ => rfl⟩

/-- A slot that is not ACTIVE is emptied with its entries. -/
theorem State.keepsActive_emptied {s : State} (hagrees : s.PoolAgrees) {i : RecordNo} {p : Placement} {x : SlotLetter} {g : Slot}
    (hp : s.placement? i = some p) (hg : p.slot x = some g) (hph : g.phase = .superseded) : s.KeepsActive (s.emptied i p x g) where
  slots j r hr _ := by
    have hplaced : (s.emptied i p x g).placement? j = if i = j then some (p.withSlot x none) else s.placement? j :=
      State.placement?_setPlacement s i j _
    by_cases hj : i = j
    · subst hj
      rw [hp] at hr
      cases hr
      refine ⟨_, by rw [hplaced, if_pos rfl], fun y v hv hactive => ?_⟩
      have hyx : y ≠ x := fun heq => by
        rw [heq, hg] at hv
        cases hv
        rw [hph] at hactive
        cases hactive
      have hother : y = x.other := by cases x <;> cases y <;> simp_all [SlotLetter.other]
      rw [hother, p.slot_withSlot_other, ← hother, hv]
    · exact ⟨r, by rw [hplaced, if_neg hj, hr], fun _ _ hv _ => hv⟩
  entries e en r v hen hr _ hv hactive := by
    refine ((State.vacates_emptied hagrees hp hg).pool e en).mpr ⟨hen, fun ⟨howner, hslot⟩ => ?_⟩
    rw [howner, hp] at hr
    cases hr
    rw [List.mem_singleton.mp hslot, hg] at hv
    cases hv
    rw [hph] at hactive
    cases hactive
  planes _ _ _ := rfl

/-- An unclaimed record becomes FREE with its entries. -/
theorem State.keepsActive_freed {s : State} (hagrees : s.PoolAgrees) {i : RecordNo} {p : Placement} (hp : s.placement? i = some p)
    (hc : p.claim = none) : s.KeepsActive (s.freed i p p.occupiedSlots) where
  slots j r hr hclaim := by
    have hj : j ≠ i := fun hj => by
      rw [hj, hp] at hr
      cases hr
      exact hclaim hc
    exact ⟨r, ((State.frees_freed hp _).others j hj).trans hr, fun _ _ hv _ => hv⟩
  entries e en r v hen hr hclaim _ _ := by
    refine ((State.vacates_freed hagrees hp).pool e en).mpr ⟨hen, fun ⟨howner, _⟩ => ?_⟩
    rw [howner, hp] at hr
    cases hr
    exact hclaim hc
  planes _ _ _ := rfl

/-- A slot that was EMPTY is filled with entries that were FREE. -/
theorem State.Fills.keepsActive {s t : State} {i : RecordNo} {x : SlotLetter} {v : Listed} {ds : List DestDesc}
    (hf : s.Fills t i x v ds) (hadmits : s.Admits v.key.link v.width v.height ds)
    (hslots : ∀ j p, s.placement? j = some p → ∃ q, t.placement? j = some q ∧ ∀ y g, p.slot y = some g → q.slot y = some g) :
    s.KeepsActive t where
  slots j p hp _ := by
    obtain ⟨q, hq, hkeeps⟩ := hslots j p hp
    exact ⟨q, hq, fun y g hg _ => hkeeps y g hg⟩
  entries e en _ _ hen _ _ _ _ := (hf.look_pool hadmits e en).mpr (.inl hen)
  planes _ _ _ := by rw [hf.planes]

/-- An unclaimed record flips (R13). -/
theorem State.keepsActive_takeFlip {s : State} {i : RecordNo} (hi : ∀ p, s.placement? i = some p → p.claim = none) :
    s.KeepsActive (s.takeFlip i) where
  slots j r hr hclaim := by
    have hj : ¬ i = j := fun hj => hclaim (hi r (hj ▸ hr))
    refine ⟨r, ?_, fun _ _ hv _ => hv⟩
    rcases s.takeFlip_cases i with heq | ⟨p, hp, -, heq⟩
    · rw [heq, hr]
    · rw [heq]
      exact (State.placement?_setPlacement s i j p.flip).trans ((if_neg hj).trans hr)
  entries e en _ _ hen _ _ _ _ := by rw [s.offQueue_takeFlip i]; exact hen
  planes _ _ _ := by rw [s.offQueue_takeFlip i]

end Sys2Proof.Machine

/-! SUPPORT. No possible grant waits after a segment arrives, nor after an operation that ends with no departure (R125, R144,
R145). -/

namespace Sys2Proof.Machine

/-! ## Arrivals -/

/-- A frame that is marked damaged leaves the grants. -/
theorem State.granted_setContext {s : State} {l : LinkNo} {c : Channel} {f f' : Frame} (hf : s.context? l c = some f)
    (hview : f'.lineView = f.lineView) : (s.setContext l c (some f')).granted = s.granted := by
  refine State.granted_congr rfl rfl fun m => State.roomRequest_congr ((s.offContexts_setContext l c _ m).fifo)
    ((s.offContexts_setContext l c _ m).single) (fun d => ?_) (State.keepsTakers_of_same rfl rfl rfl m)
  rw [State.context?_setContext]
  split_ifs with hmd
  · obtain ⟨rfl, rfl⟩ := hmd
    rw [hf, Option.map_some, Option.map_some, hview]
  · rfl

/-- What is processed on link `l` leaves the frames of the other links, and the slots of the records whose keys are on
them. -/
structure State.KeepsOthers (s t : State) (l : LinkNo) : Prop where
  contexts : ∀ m, m ≠ l → ∀ c, t.context? m c = s.context? m c
  records : ∀ i p, s.placement? i = some p → p.key.link ≠ l →
    ∃ q, t.placement? i = some q ∧ q.key = p.key ∧ ∀ x, q.slot x = p.slot x

theorem State.KeepsOthers.trans {s t u : State} {l : LinkNo} (h : s.KeepsOthers t l) (h' : t.KeepsOthers u l) :
    s.KeepsOthers u l where
  contexts m hm c := (h'.contexts m hm c).trans (h.contexts m hm c)
  records i p hp hl := by
    obtain ⟨q, hq, hkey, hslots⟩ := h.records i p hp hl
    obtain ⟨r, hr, hkey', hslots'⟩ := h'.records i q hq (hkey ▸ hl)
    exact ⟨r, hr, hkey'.trans hkey, fun x => (hslots' x).trans (hslots x)⟩

theorem State.keepsOthers_of_placements {s t : State} {l : LinkNo} (hplacements : ∀ i, t.placement? i = s.placement? i)
    (hcontexts : ∀ m, m ≠ l → ∀ c, t.context? m c = s.context? m c) : s.KeepsOthers t l where
  contexts := hcontexts
  records i p hp _ := ⟨p, (hplacements i).trans hp, rfl, fun _ => rfl⟩

theorem State.keepsOthers_setContext (s : State) (l : LinkNo) (c : Channel) (f : Option Frame) :
    s.KeepsOthers (s.setContext l c f) l :=
  State.keepsOthers_of_placements (fun _ => rfl) fun m hm d => by
    rw [State.context?_setContext, if_neg fun hmd => hm hmd.1.symm]

theorem State.keepsOthers_countLink (s : State) (l : LinkNo) (n : LinkCounter) : s.KeepsOthers (s.countLink l n) l :=
  State.keepsOthers_of_placements (fun _ => rfl) fun m _ d => s.context?_countLink l m n d

theorem State.keepsOthers_setPlacement {s : State} {i : RecordNo} {p p' : Placement} (hp : s.placement? i = some p)
    (hcore : p'.core = p.core) (l : LinkNo) : s.KeepsOthers (s.setPlacement i p') l where
  contexts _ _ _ := rfl
  records j q hq _ := by
    obtain ⟨r, hr, hcore'⟩ := (State.sameCores_setPlacement hp hcore).symm.exists hq
    exact ⟨r, hr, Placement.key_of_core hcore'.symm, Placement.slot_of_core hcore'.symm⟩

theorem State.keepsOthers_endFrame (s : State) (l : LinkNo) (c : Channel) (f : Frame) (n : RecordCounter) :
    s.KeepsOthers (s.endFrame l c f n) l where
  contexts m hm d := by rw [State.context?_endFrame, if_neg fun hmd => hm hmd.1.symm]
  records i p hp _ := by
    by_cases hfi : f.claims i = true
    · exact ⟨_, State.placement?_endFrame_claimed hfi hp l c n, rfl, fun x => by cases x <;> rfl⟩
    · exact ⟨p, (State.placement?_endFrame_other hfi l c n).trans hp, rfl, fun _ => rfl⟩

theorem State.keepsOthers_truncate (s : State) (l : LinkNo) (c : Channel) : s.KeepsOthers (s.truncate l c) l := by
  cases hf : s.context? l c with
  | none =>
    rw [State.truncate_idle hf]
    exact State.keepsOthers_of_placements (fun _ => rfl) fun _ _ _ => rfl
  | some f =>
    rw [State.truncate_open hf]
    exact (s.keepsOthers_countLink l _).trans (State.keepsOthers_endFrame _ l c f _)

/-- The open-and-claim request writes a record of its own link's key. -/
theorem State.keepsOthers_openAndClaim {s : State} {i : RecordNo} {p : Placement} (hp : s.placement? i = some p) {l : LinkNo}
    (hl : p.key.link = l) (c : Key) : s.KeepsOthers (s.openAndClaim i c) l where
  contexts m _ d := State.context?_congr (s.links_openAndClaim i c) m d
  records j q hq hlink := by
    have hj : ¬ i = j := fun hj => by
      rw [← hj, hp] at hq
      cases hq
      exact hlink hl
    refine ⟨q, ?_, rfl, fun _ => rfl⟩
    rw [State.openAndClaim_eq hp, State.placement?_setPlacement, if_neg hj, State.placement?_takeFlip hp, if_neg hj, hq]

theorem State.TablesSettled.keepsOthers_processOpen {s : State} (h : s.TablesSettled) (l : LinkNo) (g : Segment) :
    s.KeepsOthers (s.processOpen l g) l := by
  have hcases := s.processOpen_cases l g
  have hfirst := s.keepsOthers_truncate l ((look s.links l).contextOf g)
  have hsettled := h.dataPath (s.dataPath_truncate l ((look s.links l).contextOf g))
  simp only at hcases
  generalize (look s.links l).contextOf g = c at hcases hfirst hsettled
  generalize s.truncate l c = u at hcases hfirst hsettled
  rcases hcases with heq | ⟨i, p, hk, hp, heq | ⟨_, heq⟩⟩
  · rw [heq]
    exact (hfirst.trans (u.keepsOthers_countLink l _)).trans (State.keepsOthers_setContext _ l c _)
  · rw [heq]
    exact (hfirst.trans (State.keepsOthers_setPlacement hp (p.heard.core_count .refused) l)).trans
      (State.keepsOthers_setContext _ l c _)
  · obtain ⟨q, hq, -, hkey⟩ := (hsettled.keysAgree _ i).mp hk
    rw [hp] at hq
    cases hq
    have hheard : (u.setPlacement i p.heard).placement? i = some p.heard := State.placement?_setPlacement_same u i _
    have hlink : p.heard.key.link = l := congrArg Key.link hkey
    rw [heq]
    exact ((hfirst.trans (State.keepsOthers_setPlacement hp p.core_heard l)).trans
      (State.keepsOthers_openAndClaim hheard hlink { link := l, channel := c })).trans (State.keepsOthers_setContext _ l c _)

theorem State.keepsOthers_processClose (s : State) (l : LinkNo) (g : Segment) : s.KeepsOthers (s.processClose l g) l := by
  cases hf : s.context? l ((look s.links l).contextOf g) with
  | none => rw [State.processClose_idle rfl hf]; exact s.keepsOthers_countLink l _
  | some f => rw [State.processClose_open rfl hf]; exact s.keepsOthers_endFrame l _ f _

/-- An OPEN or CLOSE processed on a link where no segment waits leaves the grants. -/
theorem State.KeepsOthers.granted {s t : State} {l : LinkNo} (h : s.KeepsOthers t l) (hclaims : s.ClaimsAgree)
    (hfifo : (look s.links l).fifo = []) (hlinks : s.OffContexts t) (hoff : s.OffQueue t) : t.granted = s.granted := by
  have hpool : t.pool = s.pool := by rw [hoff]
  have hplanes : t.planes = s.planes := by rw [hoff]
  refine State.granted_congr (by rw [hoff]) (by rw [hoff.bursts]) fun m => ?_
  by_cases hm : m = l
  · subst hm
    rw [State.roomRequest_of_fifo_nil hfifo, State.roomRequest_of_fifo_nil ((hlinks m).fifo.trans hfifo)]
  · refine State.roomRequest_congr (hlinks m).fifo (hlinks m).single (fun c => by rw [h.contexts m hm]) fun c f i n hf hi => ?_
    obtain ⟨p, hp, hclaim⟩ := hclaims.2 m c f i hf hi
    have hkey := (hclaims.1 i p _ hp hclaim).1
    obtain ⟨q, hq, -, hslots⟩ := h.records i p hp (by rw [← hkey]; exact hm)
    exact State.takers_of_slots hpool hplanes hp hq hslots n

theorem State.granted_countLink (s : State) (l : LinkNo) (n : LinkCounter) : (s.countLink l n).granted = s.granted :=
  State.granted_setLink rfl rfl fun _ => rfl

/-- After a segment is offered no possible grant waits (R125, R145). -/
theorem State.granted_offerSegment {s : State} (h : s.TablesSettled) (hg : s.granted = none) (l : LinkNo) (g : Segment) :
    (s.offerSegment l g).granted = none := by
  by_cases hlength : (look s.links l).fifo.length < 4
  · by_cases hempty : (look s.links l).fifo = []
    · simp only [State.offerSegment]
      rw [if_pos hlength, if_pos (List.isEmpty_iff.mpr hempty)]
      cases hk : g.kind with
      | line => exact State.granted_grantAll _
      | openFrame =>
        exact ((h.keepsOthers_processOpen l g).granted h.claimsAgree hempty (s.offContexts_processOpen l g)
          (s.offQueue_processOpen l g)).trans hg
      | closeFrame =>
        exact ((s.keepsOthers_processClose l g).granted h.claimsAgree hempty (s.offContexts_processClose l g)
          (s.offQueue_processClose l g)).trans hg
    · rw [State.offerSegment_joins (List.length_pos_iff.mpr hempty) hlength]
      obtain ⟨e, rest, hf⟩ := List.exists_cons_of_ne_nil hempty
      refine Eq.trans (State.granted_setLink rfl ?_ fun _ => rfl) hg
      rw [hf]
      rfl
  · have hfull : 4 ≤ (look s.links l).fifo.length := Nat.le_of_not_lt hlength
    by_cases hmarks : g.kind ≠ .line ∨ s.context? l ((look s.links l).contextOf g) = none ∨
        (look s.links l).frameEdgeWaits ((look s.links l).contextOf g) = true
    · rw [State.offerSegment_overrun hfull hmarks, State.granted_countLink, hg]
    · obtain ⟨hk, hcontext, hedge⟩ : g.kind = .line ∧ s.context? l ((look s.links l).contextOf g) ≠ none ∧
          ¬ (look s.links l).frameEdgeWaits ((look s.links l).contextOf g) = true := by
        simpa only [not_or, not_not, ne_eq] using hmarks
      obtain ⟨f, hf⟩ := Option.ne_none_iff_exists'.mp hcontext
      rw [State.offerSegment_overrun_marks hfull hk hf hedge]
      exact (State.granted_setContext (f' := { f with damaged := true }) ((s.context?_countLink l l _ _).trans hf) rfl).trans
        ((s.granted_countLink l _).trans hg)

/-! ## Operations -/

theorem State.granted_post (s : State) (r : Response) : (s.post r).granted = s.granted :=
  State.granted_same rfl rfl rfl rfl rfl rfl

theorem State.granted_dropped (s : State) : s.dropped.granted = s.granted := State.granted_same rfl rfl rfl rfl rfl rfl

theorem State.granted_finish (s : State) (r : CommandRecord) (status : Status) (payload : Payload) (found : Option Handle) :
    (s.finish r status payload found).granted = s.granted := State.granted_same rfl rfl rfl rfl rfl rfl

theorem State.granted_begun (s : State) (x : Source) (q : Request) : (s.begun x q).granted = s.granted :=
  State.granted_same (s.begun_records x q) (s.begun_pool x q) (s.begun_planes x q) (s.begun_links x q)
    (by rw [State.begun_frame]) (s.begun_bursts x q)

theorem State.Settled.granted_setPlacement {s : State} (h : s.Settled) {i : RecordNo} {p p' : Placement}
    (hp : s.placement? i = some p) (hcore : p'.core = p.core) : (s.setPlacement i p').granted = s.granted :=
  ((State.sameCores_setPlacement hp hcore).keepsActive rfl rfl).granted h (h.move (.report i p p' hp hcore)).tables rfl rfl rfl

theorem State.Settled.granted_drain {s : State} (h : s.Settled) {i : RecordNo} {p : Placement} (hp : s.placement? i = some p)
    (hd : p.drain = none) (cause : DrainCause) (abort : Bool) : (s.drain i p cause abort).granted = s.granted := by
  obtain ⟨hpool, hplanes, hlinks, hlast, hbursts⟩ := s.drain_leaves i p cause abort
  exact ((State.rewrites_drain hp cause abort).keepsActive hpool hplanes fun x => by cases x <;> rfl).granted h
    (h.tables.drain hp hd cause abort) hlinks hlast hbursts

/-- A configuration that does not empty the receiver leaves the grants: the mode changes only where no segment waits. -/
theorem State.granted_configureLink {s : State} (hlinks : s.LinksAccounted) {l : LinkNo} {enable single : Bool} {z : PixelSize}
    (hkept : ¬ (look s.links l).emptiedBy enable single z = true) : (s.configureLink l enable single z).granted = s.granted := by
  obtain ⟨state, goodRun, errorRun, heq⟩ := State.configureLink_kept hkept
  rw [heq]
  refine State.granted_setLink rfl rfl fun hfifo => ?_
  have hlocked := (hlinks l).locked_of_fifo hfifo
  by_contra hne
  exact hkept (Link.emptiedBy_iff.mpr ⟨by rw [hlocked]; exact nofun, .inr (Link.changes_iff.mpr (.inl (Ne.symm hne)))⟩)

theorem State.granted_completeConfigureLink {s : State} (hlinks : s.LinksAccounted) (hg : s.granted = none) (r : CommandRecord)
    (l : LinkNo) (enable single : Bool) (z : PixelSize) : (s.completeConfigureLink r l enable single z).granted = none := by
  unfold State.completeConfigureLink
  simp only
  split
  · exact State.granted_grantAll _
  · next hkept => rw [State.granted_finish, State.granted_configureLink hlinks hkept, hg]

/-- The end of a fence leaves the grants: no ACTIVE slot of a claimed record is emptied. -/
theorem State.Settled.granted_completeFence {s : State} (h : s.Settled) {op : FenceOperation}
    (ho : ({ s with engine := .fence op } : State).OperationHolds)
    (hbursts : ∀ i, op.request.record? = some i → ∀ b ∈ s.bursts, b.record = i → b.slot ∉ op.target) :
    (s.completeFence op).granted = s.granted := by
  have hagrees : s.PoolAgrees := by
    obtain ⟨-, ⟨hpool, -⟩, -⟩ := h
    exact hpool
  simp only [State.OperationHolds] at ho
  unfold State.completeFence
  cases hr : op.request with
  | sync r => exact s.granted_finish r .ok .empty none
  | commit i =>
    simp only [hr] at ho
    obtain ⟨p, hp, htarget, hne, hbit⟩ := ho
    have hplaced : s.placement? i = some p := hp
    obtain ⟨x, g, hx, hg, hph⟩ := Placement.superseded_eq_one (h.tables.oneActive i p hplaced) (htarget ▸ hne)
    have hnone := hbursts i (by rw [hr]; rfl)
    simp only
    rw [htarget, hx] at hnone ⊢
    rw [State.completeCommit_one hplaced hg]
    exact (State.granted_post (s.emptied i p x g) _).trans ((State.keepsActive_emptied hagrees hplaced hg hph).granted h
      (h.emptied hplaced hg hph hbit hnone).tables rfl rfl rfl)
  | release i =>
    simp only [hr] at ho
    obtain ⟨p, hp, hd, hc, htarget, hbit⟩ := ho
    have hplaced : s.placement? i = some p := hp
    have hnone := hbursts i (by rw [hr]; rfl)
    simp only
    rw [htarget] at hnone ⊢
    obtain ⟨r, heq⟩ := State.completeRelease_freed hplaced hd p.occupiedSlots
    rw [heq]
    exact (State.granted_post _ r).trans ((State.keepsActive_freed hagrees hplaced hc).granted h
      (h.freed hplaced hd hc hbit hnone).tables rfl rfl rfl)

theorem State.Settled.granted_startFence {s : State} (h : s.Settled) {op : FenceOperation}
    (ho : ({ s with engine := .fence op } : State).OperationHolds)
    (hmarks : ∀ i, op.request.record? = some i → s.Marked i op.target op.awaited) : (s.startFence op).granted = s.granted := by
  by_cases hwaits : awaiting op.awaited = true
  · rw [State.startFence_waits hwaits]
    exact State.granted_same rfl rfl rfl rfl rfl rfl
  · rw [State.startFence_completes (Bool.eq_false_iff.mpr hwaits)]
    exact h.granted_completeFence ho fun i hi => (hmarks i hi).none_left (Bool.eq_false_iff.mpr hwaits)

end Sys2Proof.Machine

/-! SUPPORT. No possible grant waits after any event, and what every step keeps of the windows (R28 to R40, R48, R51, R143,
R145). -/

namespace Sys2Proof.Machine

/-! ## Runs and scans -/

theorem State.Settled.granted_hostRun {u t : State} {x : Source} {r : CommandRecord} (h : u.Settled) (hlinks : u.LinksAccounted)
    (hg : u.granted = none) (run : u.HostRun x r t) : t.granted = none := by
  have hscan (position : ScanPosition) : (u.enterScan x r position).granted = none :=
    (State.granted_same rfl rfl rfl rfl rfl rfl).trans hg
  have hdone {v : State} (hv : v.granted = u.granted) (status : Status) (payload : Payload) :
      (v.finish r status payload).granted = none := (v.granted_finish r status payload none).trans (hv.trans hg)
  cases run with
  | completes status payload found => exact (u.granted_finish r status payload found).trans hg
  | create p kind passed => exact hscan _
  | amend p kind passed => exact hscan _
  | definePlane p kind passed => exact hscan _
  | attributes i b p used =>
    have hset : (u.setPlacement i (b.withAttributes p)).granted = u.granted := h.granted_setPlacement used rfl
    exact hdone hset _ _
  | retire i b abort payload used live => exact hdone (h.granted_drain used live .retire abort) _ _
  | configureLink l enable single z free => exact State.granted_completeConfigureLink hlinks hg r l enable single z
  | timeout n payload =>
    have hset : ({ u with ackTimeout := n } : State).granted = u.granted := State.granted_same rfl rfl rfl rfl rfl rfl
    exact hdone hset _ _
  | levels ls payload =>
    have hset : ({ u with levels := ls } : State).granted = u.granted := State.granted_same rfl rfl rfl rfl rfl rfl
    exact hdone hset _ _
  | recordCounters i b payload used =>
    have hset : (u.setPlacement i { b with counters := RecordCounters.zero }).granted = u.granted :=
      h.granted_setPlacement used rfl
    exact hdone hset _ _
  | linkCounters l payload =>
    have hset : (u.setLink l { look u.links l with counters := Vector.replicate 8 0 }).granted = u.granted :=
      State.granted_setLink rfl rfl fun _ => rfl
    exact hdone hset _ _
  | portCounters payload =>
    have hset : ({ u with fsRefused := 0, fsTimeout := 0 } : State).granted = u.granted :=
      State.granted_same rfl rfl rfl rfl rfl rfl
    exact hdone hset _ _
  | sync kind =>
    exact (h.granted_startFence (by simp only [State.OperationHolds]) fun i hi => (by cases hi)).trans hg

theorem State.Settled.granted_internalRun {s t : State} {i : RecordNo} {x : Source} (h : s.Settled) (hg : s.granted = none)
    (hs : s.Starts x (.internal i)) (run : (s.begun x (.internal i)).InternalRun i x t) : t.granted = none := by
  have hbegun := h.begun x (.internal i)
  have hgranted := (s.granted_begun x (.internal i)).trans hg
  cases run with
  | dropped => exact (State.granted_dropped _).trans hgranted
  | expire p used due =>
    unfold State.expire
    split
    · exact (State.granted_post _ _).trans
        ((hbegun.granted_drain used (Placement.expires_iff.mp due).1 .silence true).trans hgranted)
    · exact (State.granted_post _ _).trans hgranted
  | commit p used =>
    refine (hbegun.granted_startFence (h.tables.commit_holds hs used rfl rfl) fun j hj => ?_).trans hgranted
    cases hj
    exact State.marked_tagged _ i _
  | release p used =>
    refine (hbegun.granted_startFence (h.tables.release_holds hs used rfl rfl) fun j hj => ?_).trans hgranted
    cases hj
    exact State.marked_tagged _ i _

theorem State.Settled.granted_staging {s : State} (h : s.Settled) {i : RecordNo} {b : Placement} {x : SlotLetter}
    {p : AmendParams} (hb : s.placement? i = some b) (hx : b.slot x = none)
    (hgeometry : geometryFault p.width p.height p.count p.used = none) (hslot : s.slotDenial b.key.link p.used = none)
    (hclear : s.OverlapFree (some i) p.used) : (s.staging i b x p).granted = s.granted := by
  refine ((State.fills_staging hb hx p).keepsActive (State.admits_of_checks hgeometry hslot) fun j q hq => ?_).granted h
    (h.staging hb hx hgeometry hslot hclear).tables rfl rfl rfl
  have hplaced := State.placement?_setPlacement (s.allocate i x p.used) i j
    (b.withSlot x (some (p.stagedSlot (s.allocated p.used))))
  by_cases hj : i = j
  · subst hj
    rw [hb] at hq
    cases hq
    refine ⟨_, hplaced.trans (if_pos rfl), fun y g hg => ?_⟩
    have hyx : y ≠ x := fun heq => by
      rw [heq, hx] at hg
      cases hg
    have hother : y = x.other := by cases x <;> cases y <;> simp_all [SlotLetter.other]
    rw [hother, b.slot_withSlot_other, ← hother, hg]
  · exact ⟨q, hplaced.trans ((if_neg hj).trans hq), fun _ _ hg => hg⟩

/-- What a scan completes to leaves the grants: no ACTIVE slot of a claimed record is written, no OCCUPIED entry, and no plane
that holds one. -/
theorem State.Settled.granted_scanEnd {s u : State} (h : s.Settled) (he : s.ScanEnd u) : u.granted = s.granted := by
  cases he with
  | created i k p free unkeyed geometry slot clear =>
    refine ((State.fills_created free k p).keepsActive (State.admits_of_checks geometry slot) fun j q hq => ?_).granted h
      (h.created free unkeyed geometry slot clear).tables rfl rfl rfl
    have hj : ¬ i = j := fun hj => by
      rw [← hj, free] at hq
      cases hq
    exact ⟨q, (State.placement?_setPlacement _ i j _).trans ((if_neg hj).trans hq), fun _ _ hg => hg⟩
  | staged i b x p used empty geometry slot clear => exact h.granted_staging used empty geometry slot clear
  | flipped i b x p used empty geometry slot clear unclaimed =>
    have hstaging := h.staging used empty geometry slot clear
    have hoff := (s.staging i b x p).offQueue_takeFlip i
    exact ((State.keepsActive_takeFlip (State.staging_claim unclaimed)).granted hstaging (hstaging.tables.takeFlip i)
      (State.links_takeFlip _ i) (by rw [hoff]) (by rw [hoff])).trans (h.granted_staging used empty geometry slot clear)
  | planes q p named denial off clash =>
    have hkeeps : s.KeepsActive { s with planes := put s.planes q p.descriptor? } :=
      { slots := fun i r hr _ => ⟨r, hr, fun _ _ hg _ => hg⟩
        entries := fun _ _ _ _ hen _ _ _ _ => hen
        planes := fun e en hen => look_put_ne _ _ fun heq => off e en hen (heq ▸ named) }
    exact hkeeps.granted h h.tables rfl rfl rfl

theorem State.DataSound.granted_stepScan {s : State} (h : s.DataSound) {op : ScanOperation} (he : s.engine = .scan op) :
    (s.stepScan op).granted = s.granted := by
  obtain ⟨hsettled, -, hscan, -⟩ := h
  unfold State.stepScan
  split
  · exact (State.granted_finish _ _ _ _ _).trans (State.granted_same rfl rfl rfl rfl rfl rfl)
  · exact State.granted_same rfl rfl rfl rfl rfl rfl
  · next hv =>
    obtain ⟨u, status, payload, found, hend, heq⟩ := hscan.completeScan hsettled.tables.oneActive he hv
    rw [heq, State.granted_finish]
    exact hsettled.granted_scanEnd hend

/-! ## Time and transactions -/

theorem State.DataSound.granted_boundary {s : State} (h : s.DataSound) : s.boundary.granted = s.granted := by
  have htables := h.boundary.1.tables
  have hcores := s.sameCores_boundary
  have hframe : s.boundary = { s with
    timebase := s.boundary.timebase, records := s.boundary.records, expirySet := s.boundary.expirySet } := rfl
  rw [hframe] at hcores htables ⊢
  generalize s.boundary.timebase = timebase at hcores htables ⊢
  generalize s.boundary.records = records at hcores htables ⊢
  generalize s.boundary.expirySet = expirySet at hcores htables ⊢
  exact (hcores.keepsActive rfl rfl).granted h.1 htables rfl rfl rfl

theorem State.granted_preempt (s : State) (r : CommandRecord) : (s.preempt r).granted = s.granted := by
  unfold State.preempt
  split
  · split
    · exact State.granted_same rfl rfl rfl rfl rfl rfl
    · rfl
  · rfl
  · rfl

theorem State.DataSound.granted_portEffect {s u : State} (h : s.DataSound) (hg : s.granted = none) (he : s.PortEffect u) :
    u.granted = none := by
  have hsame {v : State} (hv : s.granted = v.granted) : v.granted = none := hv.symm.trans hg
  cases he with
  | answer bytes => exact hsame (State.granted_same rfl rfl rfl rfl rfl rfl)
  | push r room => exact hsame (State.granted_same rfl rfl rfl rfl rfl rfl)
  | priority r =>
    have hslot : ({ s with prioritySlot := some r } : State).granted = s.granted := State.granted_same rfl rfl rfl rfl rfl rfl
    exact (State.granted_same rfl rfl rfl rfl rfl rfl).trans ((State.granted_preempt _ r).trans (hslot.trans hg))
  | withdraw bytes => exact hsame (State.granted_same rfl rfl rfl rfl rfl rfl)
  | flush => exact hsame (State.granted_same rfl rfl rfl rfl rfl rfl)
  | pop r rest bytes filled => exact hsame (State.granted_same rfl rfl rfl rfl rfl rfl)
  | status bytes => exact hsame (State.granted_same rfl rfl rfl rfl rfl rfl)
  | link l bytes =>
    have hlink : (s.setLink l { look s.links l with attention := false }).granted = s.granted :=
      State.granted_setLink rfl rfl fun _ => rfl
    exact (State.granted_same rfl rfl rfl rfl rfl rfl).trans (hlink.trans hg)
  | framestore bytes => exact hsame (State.granted_same rfl rfl rfl rfl rfl rfl)
  | controls mask gate mark => exact hsame (State.granted_same rfl rfl rfl rfl rfl rfl)
  | tableReset =>
    exact (State.granted_same rfl rfl rfl rfl rfl rfl).trans (s.cleared_tableReset.dataSound h.planesApart).2

/-! ## Every event -/

theorem State.DataSound.granted_event {s t : State} (h : s.DataSound) (hlinks : s.LinksAccounted) (hg : s.granted = none)
    (he : s.Event t) : t.granted = none := by
  have hsettled : s.Settled := h.1
  cases he with
  | nothing => exact hg
  | powerOn =>
    exact ((State.cleared_fresh s.pending s.draws s.frame.afterPowerOn).dataSound
      (State.planesApart_fresh s.pending s.draws s.frame.afterPowerOn)).2
  | frame f short => exact (State.granted_same rfl rfl rfl rfl rfl rfl).trans hg
  | transaction u effect =>
    have heffect := h.granted_portEffect hg effect
    exact (State.granted_same (t := u.withFrame .replying) rfl rfl rfl rfl rfl rfl).trans heffect
  | host x r t starts run =>
    refine (hsettled.begun x _).granted_hostRun ?_ ((s.granted_begun x _).trans hg) run
    rw [State.LinksAccounted, State.begun_links]
    exact hlinks
  | internal x i t starts run => exact hsettled.granted_internalRun hg starts run
  | scan op inFlight => exact (h.granted_stepScan inFlight).trans hg
  | departure how answers => exact State.granted_grantAll _
  | seek l good seeking =>
    obtain ⟨hcontexts, hsingle, -, hfifo⟩ := (look s.links l).seek_keeps good
    exact (State.granted_setLink hcontexts (by rw [hfifo]) fun _ => hsingle).trans hg
  | headerError l locked =>
    by_cases hbelow : (look s.links l).errorRun + 1 < 8
    · have hcount : (s.setLink l { (look s.links l).count .header with errorRun := (look s.links l).errorRun + 1 }).granted =
          s.granted := State.granted_setLink rfl rfl fun _ => rfl
      rw [State.lockedError_below hbelow]
      exact hcount.trans hg
    · rw [State.lockedError_eighth (Nat.le_of_not_lt hbelow)]
      exact State.granted_grantAll _
  | segment l g locked whole =>
    have hlink : (s.setLink l { look s.links l with errorRun := 0 }).granted = s.granted :=
      State.granted_setLink rfl rfl fun _ => rfl
    have htables : (s.setLink l { look s.links l with errorRun := 0 }).TablesSettled := hsettled.tables.setLink rfl
    rw [State.lockedGood]
    generalize s.setLink l { look s.links l with errorRun := 0 } = u at hlink htables
    exact State.granted_offerSegment htables (hlink.trans hg) l g
  | grant => exact State.granted_grantAll s
  | abortIgnored a => exact (State.granted_same rfl rfl rfl rfl rfl rfl).trans hg
  | abort a f claiming => exact State.granted_grantAll _
  | boundary => exact h.granted_boundary.trans hg

/-- Settles O60: by the event that the step is, its accounts, its tables and windows, and its grants. -/
theorem everyStepKeepsTheWindowsApart : Obligations.EveryStepKeepsTheWindowsApart := by
  intro s t haccounted htables hwindows hstep
  rcases step_cases hstep with rfl | ⟨rest, hevent⟩
  · exact ⟨haccounted, htables, hwindows⟩
  · have haccounted' : ({ s with pending := rest } : State).Accounted := haccounted
    obtain ⟨-, -, hlinks, -⟩ := State.accounted_iff.mp haccounted'
    obtain ⟨hsound, hgranted⟩ := State.windowsApart_iff_dataSound.mp ⟨htables, hwindows⟩
    have hsound' : ({ s with pending := rest } : State).DataSound := hsound
    have hgranted' : ({ s with pending := rest } : State).granted = none :=
      (State.granted_same rfl rfl rfl rfl rfl rfl).trans hgranted
    exact ⟨haccounted'.event hevent, State.windowsApart_iff_dataSound.mpr
      ⟨hsound'.event hlinks hevent, hsound'.granted_event hlinks hgranted' hevent⟩⟩

end Sys2Proof.Machine
